-- ==== Sys2Proof/Word.lean ====
section
/-! DEFINITION. The words of the codec: bytes, byte sequences, and the two parts of a byte the rules speak of
(spec/00_scope.md R10). -/

namespace Sys2Proof

/-- A byte: an unsigned integer 0..255, 8 bits (R10). -/
abbrev Byte := BitVec 8

/-- A 16-bit value: the argument of `WRITE_MAJOR` and `WRITE_MINOR`, and a decoded `U16` (R67, R78). -/
abbrev Half := BitVec 16

/-- A byte sequence, offset 0 first (R10). -/
abbrev Bytes := List Byte

end Sys2Proof
end

