-- ==== Sys2Proof/Names.lean ====
section
/-! DEFINITION. The closed enumerations of the protocol's names, and the command request, the typed value a caller
hands to the encoder (spec/30_encoding.md R70 to R73, R79). -/

namespace Sys2Proof

/-- The thirty command mnemonics, in the order of R70. -/
inductive CmdName where
  | reset | ping | readBtAddress | readVersion | writeVersion | readLoudness | writeLoudness
  | readMode | writeMode | readUuid | writeUuid | readMajor | writeMajor | readMinor | writeMinor
  | readPower | writePower | readAdvEnabled | writeAdvEnabled | readEventsEnabled | writeEventsEnabled
  | readTargetSpeed | readModelNumber | readFirmwareVersion | readCrashReport | cancelDataBlocks
  | sendDataBlocks | respondDataRequest | beginSettingsUpdate | endSettingsUpdate
  deriving DecidableEq, Repr

/-- Every command mnemonic, in the order of R70. -/
def CmdName.all : List CmdName :=
  [.reset, .ping, .readBtAddress, .readVersion, .writeVersion, .readLoudness, .writeLoudness,
   .readMode, .writeMode, .readUuid, .writeUuid, .readMajor, .writeMajor, .readMinor, .writeMinor] ++
  [.readPower, .writePower, .readAdvEnabled, .writeAdvEnabled, .readEventsEnabled, .writeEventsEnabled,
   .readTargetSpeed, .readModelNumber, .readFirmwareVersion, .readCrashReport, .cancelDataBlocks,
   .sendDataBlocks, .respondDataRequest, .beginSettingsUpdate, .endSettingsUpdate]

/-- The ten event mnemonics, in the order of R71. -/
inductive EvtName where
  | connect | disconnect | debug | authSucceeded | authFailed | error | settingsSaved | dataRequest
  | dataBlocksSent | dataIndicated
  deriving DecidableEq, Repr

/-- Every event mnemonic, in the order of R71. -/
def EvtName.all : List EvtName :=
  [.connect, .disconnect, .debug, .authSucceeded, .authFailed, .error, .settingsSaved, .dataRequest,
   .dataBlocksSent, .dataIndicated]

/-- The nine response codes the source names and gives no number for (R72). -/
inductive RespCodeName where
  | success | busy | advertisingDisabled | bufferOverflow | remoteHangup | gattWriteFailure
  | invalidParameter | unsupportedCommand | versionRequired
  deriving DecidableEq, Repr

/-- The one error-event code the source names and gives no number for (R73). -/
inductive ErrorCodeName where
  | unrecognizedCommand
  deriving DecidableEq, Repr

/-- A command request (R79): a mnemonic of R70 with arguments of the types its request format lists in R67.
A scalar is typed by its width, so that an out-of-range scalar cannot be written down; `writePower`'s byte is read as a
signed value in −128..127. A byte-sequence argument carries its own length, which `ENCODE` checks (R102). -/
inductive CommandRequest where
  | reset (f : Bool)
  | ping
  | readBtAddress
  | readVersion
  | writeVersion (v : Byte)
  | readLoudness
  | writeLoudness (v : Byte)
  | readMode
  | writeMode (v : Byte)
  | readUuid
  | writeUuid (u : Bytes)
  | readMajor
  | writeMajor (v : Half)
  | readMinor
  | writeMinor (v : Half)
  | readPower
  | writePower (v : BitVec 8)
  | readAdvEnabled
  | writeAdvEnabled (f : Bool)
  | readEventsEnabled
  | writeEventsEnabled (f : Bool)
  | readTargetSpeed
  | readModelNumber
  | readFirmwareVersion
  | readCrashReport
  | cancelDataBlocks
  | sendDataBlocks (t e r : Byte) (d : Bytes)
  | respondDataRequest (d : Bytes)
  | beginSettingsUpdate
  | endSettingsUpdate
  deriving DecidableEq, Repr

end Sys2Proof
end

