-- ==== Sys2Proof/Config.lean ====
section
/-! DEFINITION. What an implementation fixes: the parameters of spec/00_scope.md R8 and the literals that
spec/93_implementation_defined.md asks a model to keep as named fields; and the values the spec leaves OPEN. The values
this hardware gives the parameters (`cfg`) stand in Decode.lean, beside the tables. -/

namespace Sys2Proof

/-- `HDR_LEN` (R8): "header is exactly 4 bytes". -/
def hdrLen : Nat := 4

/-- `MT_COMMAND` (R8). -/
def mtCommand : Byte := 0x00

/-- `MT_EVENT` (R8). -/
def mtEvent : Byte := 0x80

/-- The configuration of a codec: constant for the life of an instance (R8, R27). -/
structure Config where
  /-- `CLASS_ID`: the sentinel at offset 2 of every frame of this protocol (R63). -/
  classId : Byte
  /-- `MAX_PAYLOAD`: the largest legal `payload_length` (R62). -/
  maxPayload : Nat
  /-- `BUF_CAP`: the bytes of the receive buffer (R40). -/
  bufCap : Nat
  /-- `POWER_NEG_MIN`: the smallest byte value decoded as negative (R176, conflict C1). -/
  powerNegMin : Nat
  /-- The bytes of the diagnostic block of a ping's response (R68, `DEC-RAW5`). -/
  diagLen : Nat
  /-- The bytes of a hardware address (R68, `DEC-ADDR6`). -/
  addrLen : Nat
  /-- The bytes of a UUID (R67 `CMD-UUID`, R68 `DEC-UUID16`). -/
  uuidLen : Nat
  /-- The bytes of a model number and of a firmware version (R68, `DEC-MODEL`, `DEC-FWVER`). -/
  versionLen : Nat
  /-- `cmd_code(m)` (R70). -/
  cmdCode : CmdName → Byte
  /-- `evt_code(m)` (R71). -/
  evtCode : EvtName → Byte

/-- `MAX_FRAME = HDR_LEN + MAX_PAYLOAD` (R8). -/
def Config.maxFrame (c : Config) : Nat := hdrLen + c.maxPayload

/-- What every configuration meets. The first six are R8's own words ("Constraint on any `cfg`"); a length byte can hold
every legal payload length, and a 16-bit argument and a UUID fit a payload, because the frame format could otherwise not
be written (DEDUCED, log entry 3). -/
structure Config.Valid (c : Config) : Prop where
  maxFrame_le_bufCap : c.maxFrame ≤ c.bufCap
  cmdCode_injective : ∀ a b, c.cmdCode a = c.cmdCode b → a = b
  evtCode_injective : ∀ a b, c.evtCode a = c.evtCode b → a = b
  readMajor_anchor : c.cmdCode .readMajor = 0x0B
  writeMajor_anchor : c.cmdCode .writeMajor = 0x0C
  connect_anchor : c.evtCode .connect = 0x01
  maxPayload_lt : c.maxPayload < 256
  two_le_maxPayload : 2 ≤ c.maxPayload
  uuidLen_le : c.uuidLen ≤ c.maxPayload

/-- The parameters `RC_*` (R72), left OPEN by the spec: nine names and no number. A free value: no body, and no rule of
the codec reads it (log entry 5). -/
opaque Config.respCodeValue : RespCodeName → Byte

/-- The parameter `EC_UNRECOGNIZED_COMMAND` (R73), left OPEN by the spec. A free value: no body, and no rule of the codec
reads it (log entry 5). -/
opaque Config.errorCodeValue : ErrorCodeName → Byte

end Sys2Proof
end

