-- ==== Sys2Proof/Syntax.lean ====
section
/-! DEFINITION. The instructions: one constructor for each row of spec/opcode_table.json. Thirty command frames the host
sends, thirty response frames and ten event frames the device sends, and the six operations of spec/00_scope.md R14. -/

namespace Sys2Proof

/-- An instruction of the codec. A command row stands for the transmission of that request, a response or event row for
the reception of that whole frame, an operation row for that operation with its operands (log entry 1). -/
inductive Instr where
  /-- `RESET` (R104, request format `CMD-BOOL`). -/
  | reset (f : Bool)
  /-- `PING` (R105, request format `CMD-NONE`). -/
  | ping
  /-- `READ_BT_ADDRESS` (R106, request format `CMD-NONE`). -/
  | readBtAddress
  /-- `READ_VERSION` (R107, request format `CMD-NONE`). -/
  | readVersion
  /-- `WRITE_VERSION` (R108, request format `CMD-U8`). -/
  | writeVersion (v : Byte)
  /-- `READ_LOUDNESS` (R109, request format `CMD-NONE`). -/
  | readLoudness
  /-- `WRITE_LOUDNESS` (R110, request format `CMD-U8`). -/
  | writeLoudness (v : Byte)
  /-- `READ_MODE` (R111, request format `CMD-NONE`). -/
  | readMode
  /-- `WRITE_MODE` (R112, request format `CMD-U8`). -/
  | writeMode (v : Byte)
  /-- `READ_UUID` (R113, request format `CMD-NONE`). -/
  | readUuid
  /-- `WRITE_UUID` (R114, request format `CMD-UUID`). -/
  | writeUuid (u : Bytes)
  /-- `READ_MAJOR` (R115, request format `CMD-NONE`). -/
  | readMajor
  /-- `WRITE_MAJOR` (R116, request format `CMD-U16LE`). -/
  | writeMajor (v : Half)
  /-- `READ_MINOR` (R117, request format `CMD-NONE`). -/
  | readMinor
  /-- `WRITE_MINOR` (R118, request format `CMD-U16LE`). -/
  | writeMinor (v : Half)
  /-- `READ_POWER` (R119, request format `CMD-NONE`). -/
  | readPower
  /-- `WRITE_POWER` (R120, request format `CMD-I8`). -/
  | writePower (v : BitVec 8)
  /-- `READ_ADV_ENABLED` (R121, request format `CMD-NONE`). -/
  | readAdvEnabled
  /-- `WRITE_ADV_ENABLED` (R122, request format `CMD-BOOL`). -/
  | writeAdvEnabled (f : Bool)
  /-- `READ_EVENTS_ENABLED` (R123, request format `CMD-NONE`). -/
  | readEventsEnabled
  /-- `WRITE_EVENTS_ENABLED` (R124, request format `CMD-BOOL`). -/
  | writeEventsEnabled (f : Bool)
  /-- `READ_TARGET_SPEED` (R125, request format `CMD-NONE`). -/
  | readTargetSpeed
  /-- `READ_MODEL_NUMBER` (R126, request format `CMD-NONE`). -/
  | readModelNumber
  /-- `READ_FIRMWARE_VERSION` (R127, request format `CMD-NONE`). -/
  | readFirmwareVersion
  /-- `READ_CRASH_REPORT` (R128, request format `CMD-NONE`). -/
  | readCrashReport
  /-- `CANCEL_DATA_BLOCKS` (R129, request format `CMD-NONE`). -/
  | cancelDataBlocks
  /-- `SEND_DATA_BLOCKS` (R130, request format `CMD-BLOCKS`). -/
  | sendDataBlocks (t e r : Byte) (d : Bytes)
  /-- `RESPOND_DATA_REQUEST` (R131, request format `CMD-BYTES`). -/
  | respondDataRequest (d : Bytes)
  /-- `BEGIN_SETTINGS_UPDATE` (R132, request format `CMD-NONE`). -/
  | beginSettingsUpdate
  /-- `END_SETTINGS_UPDATE` (R133, request format `CMD-NONE`). -/
  | endSettingsUpdate
  /-- `RESP_RESET` (R180, decode format `DEC-CODE`): the frame with payload `p`. -/
  | respReset (p : Bytes)
  /-- `RESP_PING` (R181, decode format `DEC-RAW5`): the frame with payload `p`. -/
  | respPing (p : Bytes)
  /-- `RESP_READ_BT_ADDRESS` (R182, decode format `DEC-ADDR6`): the frame with payload `p`. -/
  | respReadBtAddress (p : Bytes)
  /-- `RESP_READ_VERSION` (R183, decode format `DEC-RAW`): the frame with payload `p`. -/
  | respReadVersion (p : Bytes)
  /-- `RESP_WRITE_VERSION` (R184, decode format `DEC-CODE`): the frame with payload `p`. -/
  | respWriteVersion (p : Bytes)
  /-- `RESP_READ_LOUDNESS` (R185, decode format `DEC-U8`): the frame with payload `p`. -/
  | respReadLoudness (p : Bytes)
  /-- `RESP_WRITE_LOUDNESS` (R186, decode format `DEC-CODE`): the frame with payload `p`. -/
  | respWriteLoudness (p : Bytes)
  /-- `RESP_READ_MODE` (R187, decode format `DEC-U8`): the frame with payload `p`. -/
  | respReadMode (p : Bytes)
  /-- `RESP_WRITE_MODE` (R188, decode format `DEC-CODE`): the frame with payload `p`. -/
  | respWriteMode (p : Bytes)
  /-- `RESP_READ_UUID` (R189, decode format `DEC-UUID16`): the frame with payload `p`. -/
  | respReadUuid (p : Bytes)
  /-- `RESP_WRITE_UUID` (R190, decode format `DEC-CODE`): the frame with payload `p`. -/
  | respWriteUuid (p : Bytes)
  /-- `RESP_READ_MAJOR` (R191, decode format `DEC-U16BE`): the frame with payload `p`. -/
  | respReadMajor (p : Bytes)
  /-- `RESP_WRITE_MAJOR` (R192, decode format `DEC-CODE`): the frame with payload `p`. -/
  | respWriteMajor (p : Bytes)
  /-- `RESP_READ_MINOR` (R193, decode format `DEC-U16BE`): the frame with payload `p`. -/
  | respReadMinor (p : Bytes)
  /-- `RESP_WRITE_MINOR` (R194, decode format `DEC-CODE`): the frame with payload `p`. -/
  | respWriteMinor (p : Bytes)
  /-- `RESP_READ_POWER` (R195, decode format `DEC-I8`): the frame with payload `p`. -/
  | respReadPower (p : Bytes)
  /-- `RESP_WRITE_POWER` (R196, decode format `DEC-CODE`): the frame with payload `p`. -/
  | respWritePower (p : Bytes)
  /-- `RESP_READ_ADV_ENABLED` (R197, decode format `DEC-BOOL`): the frame with payload `p`. -/
  | respReadAdvEnabled (p : Bytes)
  /-- `RESP_WRITE_ADV_ENABLED` (R198, decode format `DEC-CODE`): the frame with payload `p`. -/
  | respWriteAdvEnabled (p : Bytes)
  /-- `RESP_READ_EVENTS_ENABLED` (R199, decode format `DEC-BOOL`): the frame with payload `p`. -/
  | respReadEventsEnabled (p : Bytes)
  /-- `RESP_WRITE_EVENTS_ENABLED` (R200, decode format `DEC-CODE`): the frame with payload `p`. -/
  | respWriteEventsEnabled (p : Bytes)
  /-- `RESP_READ_TARGET_SPEED` (R201, decode format `DEC-RAW`): the frame with payload `p`. -/
  | respReadTargetSpeed (p : Bytes)
  /-- `RESP_READ_MODEL_NUMBER` (R202, decode format `DEC-MODEL`): the frame with payload `p`. -/
  | respReadModelNumber (p : Bytes)
  /-- `RESP_READ_FIRMWARE_VERSION` (R203, decode format `DEC-FWVER`): the frame with payload `p`. -/
  | respReadFirmwareVersion (p : Bytes)
  /-- `RESP_READ_CRASH_REPORT` (R204, decode format `DEC-RAW`): the frame with payload `p`. -/
  | respReadCrashReport (p : Bytes)
  /-- `RESP_CANCEL_DATA_BLOCKS` (R205, decode format `DEC-CODE`): the frame with payload `p`. -/
  | respCancelDataBlocks (p : Bytes)
  /-- `RESP_SEND_DATA_BLOCKS` (R206, decode format `DEC-CODE`): the frame with payload `p`. -/
  | respSendDataBlocks (p : Bytes)
  /-- `RESP_RESPOND_DATA_REQUEST` (R207, decode format `DEC-CODE`): the frame with payload `p`. -/
  | respRespondDataRequest (p : Bytes)
  /-- `RESP_BEGIN_SETTINGS_UPDATE` (R208, decode format `DEC-CODE`): the frame with payload `p`. -/
  | respBeginSettingsUpdate (p : Bytes)
  /-- `RESP_END_SETTINGS_UPDATE` (R209, decode format `DEC-CODE`): the frame with payload `p`. -/
  | respEndSettingsUpdate (p : Bytes)
  /-- `EVT_CONNECT` (R220, decode format `DEC-RAW`): the frame with payload `p`. -/
  | evtConnect (p : Bytes)
  /-- `EVT_DISCONNECT` (R221, decode format `DEC-RAW`): the frame with payload `p`. -/
  | evtDisconnect (p : Bytes)
  /-- `EVT_DEBUG` (R222, decode format `DEC-RAW`): the frame with payload `p`. -/
  | evtDebug (p : Bytes)
  /-- `EVT_AUTH_SUCCEEDED` (R223, decode format `DEC-RAW`): the frame with payload `p`. -/
  | evtAuthSucceeded (p : Bytes)
  /-- `EVT_AUTH_FAILED` (R224, decode format `DEC-RAW`): the frame with payload `p`. -/
  | evtAuthFailed (p : Bytes)
  /-- `EVT_ERROR` (R225, decode format `DEC-U8`): the frame with payload `p`. -/
  | evtError (p : Bytes)
  /-- `EVT_SETTINGS_SAVED` (R226, decode format `DEC-RAW`): the frame with payload `p`. -/
  | evtSettingsSaved (p : Bytes)
  /-- `EVT_DATA_REQUEST` (R227, decode format `DEC-RAW`): the frame with payload `p`. -/
  | evtDataRequest (p : Bytes)
  /-- `EVT_DATA_BLOCKS_SENT` (R228, decode format `DEC-RAW`): the frame with payload `p`. -/
  | evtDataBlocksSent (p : Bytes)
  /-- `EVT_DATA_INDICATED` (R229, decode format `DEC-RAW`): the frame with payload `p`. -/
  | evtDataIndicated (p : Bytes)
  /-- `ENCODE` (R100). -/
  | encode (cmd : CommandRequest)
  /-- `TRANSMIT` (R101). -/
  | transmit (cmd : CommandRequest)
  /-- `FEED` (R140). -/
  | feed (b : Byte)
  /-- `FEED_CHUNK` (R146). -/
  | feedChunk (bs : Bytes)
  /-- `RESYNC` (R147). -/
  | resync
  /-- `OP_RESET` (R270). -/
  | opReset
  deriving DecidableEq, Repr

end Sys2Proof
end

