-- ==== Sys2Proof/WellFormed.lean ====
section
/-! DEFINITION. Which instructions are well formed: a command or frame row is when it has a wire frame, that is when its
byte-sequence operands have lengths the frame format admits (spec/30_encoding.md R60, R67; spec/40_encoder_commands.md
R102). An operation row always is: a request of an illegal length is a legal operand of `ENCODE` and `TRANSMIT`, which
answer `INVALID_ARGUMENT` for it. -/

namespace Sys2Proof

/-- The length checks of R102. -/
def CommandRequest.wellFormed (c : Config) : CommandRequest → Bool
  | .writeUuid u => u.length == c.uuidLen
  | .sendDataBlocks _ _ _ d => decide (3 + d.length ≤ c.maxPayload)
  | .respondDataRequest d => decide (d.length ≤ c.maxPayload)
  | .reset _ | .ping | .readBtAddress | .readVersion | .writeVersion _ | .readLoudness | .writeLoudness _
  | .readMode | .writeMode _ | .readUuid | .readMajor | .writeMajor _ | .readMinor | .writeMinor _
  | .readPower | .writePower _ | .readAdvEnabled | .writeAdvEnabled _ | .readEventsEnabled
  | .writeEventsEnabled _ | .readTargetSpeed | .readModelNumber | .readFirmwareVersion | .readCrashReport
  | .cancelDataBlocks | .beginSettingsUpdate | .endSettingsUpdate => true

/-- The payload of a frame is at most `MAX_PAYLOAD` bytes (R60, R62). -/
def payloadFits (c : Config) (p : Bytes) : Bool := decide (p.length ≤ c.maxPayload)

/-- Well-formedness of an instruction. -/
def Instr.wellFormed (c : Config) : Instr → Bool
  | .writeUuid u => CommandRequest.wellFormed c (.writeUuid u)
  | .sendDataBlocks t e r d => CommandRequest.wellFormed c (.sendDataBlocks t e r d)
  | .respondDataRequest d => CommandRequest.wellFormed c (.respondDataRequest d)
  | .reset _ | .ping | .readBtAddress | .readVersion | .writeVersion _ | .readLoudness | .writeLoudness _
  | .readMode | .writeMode _ | .readUuid | .readMajor | .writeMajor _ | .readMinor | .writeMinor _
  | .readPower | .writePower _ | .readAdvEnabled | .writeAdvEnabled _ | .readEventsEnabled
  | .writeEventsEnabled _ | .readTargetSpeed | .readModelNumber | .readFirmwareVersion | .readCrashReport
  | .cancelDataBlocks | .beginSettingsUpdate | .endSettingsUpdate => true
  | .respReset p | .respPing p | .respReadBtAddress p | .respReadVersion p | .respWriteVersion p
  | .respReadLoudness p | .respWriteLoudness p | .respReadMode p | .respWriteMode p | .respReadUuid p
  | .respWriteUuid p | .respReadMajor p | .respWriteMajor p | .respReadMinor p | .respWriteMinor p
  | .respReadPower p | .respWritePower p | .respReadAdvEnabled p | .respWriteAdvEnabled p
  | .respReadEventsEnabled p | .respWriteEventsEnabled p | .respReadTargetSpeed p | .respReadModelNumber p
  | .respReadFirmwareVersion p | .respReadCrashReport p | .respCancelDataBlocks p | .respSendDataBlocks p
  | .respRespondDataRequest p | .respBeginSettingsUpdate p | .respEndSettingsUpdate p => payloadFits c p
  | .evtConnect p | .evtDisconnect p | .evtDebug p | .evtAuthSucceeded p | .evtAuthFailed p | .evtError p
  | .evtSettingsSaved p | .evtDataRequest p | .evtDataBlocksSent p | .evtDataIndicated p => payloadFits c p
  | .encode _ | .transmit _ | .feed _ | .feedChunk _ | .resync | .opReset => true

end Sys2Proof
end

