-- ==== Sys2Proof/Decode.lean ====
section
/-! DEFINITION. The wire: this hardware's configuration with its code tables (spec/30_encoding.md R70, R71), the frame
format (R60), the request formats with the encoder (R67, R100) and the decoder from a frame's bytes back to an
instruction. The decode formats of R68, which turn a payload into a value, are Machine/Operands.lean. -/

namespace Sys2Proof

/-! ## The configuration of this hardware (spec/00_scope.md R8) -/

/-- The default command codes of R70. Only `readMajor` and `writeMajor` are stated by the source; the other values are
the spec's own choice D4 (log entry 10). -/
def defaultCmdCode : CmdName → Byte
  | .reset => 0x00 | .ping => 0x01 | .readBtAddress => 0x02
  | .readVersion => 0x03 | .writeVersion => 0x04 | .readLoudness => 0x05
  | .writeLoudness => 0x06 | .readMode => 0x07 | .writeMode => 0x08
  | .readUuid => 0x09 | .writeUuid => 0x0A | .readMajor => 0x0B
  | .writeMajor => 0x0C | .readMinor => 0x0D | .writeMinor => 0x0E
  | .readPower => 0x0F | .writePower => 0x10 | .readAdvEnabled => 0x11
  | .writeAdvEnabled => 0x12 | .readEventsEnabled => 0x13 | .writeEventsEnabled => 0x14
  | .readTargetSpeed => 0x15 | .readModelNumber => 0x16 | .readFirmwareVersion => 0x17
  | .readCrashReport => 0x18 | .cancelDataBlocks => 0x19 | .sendDataBlocks => 0x1A
  | .respondDataRequest => 0x1B | .beginSettingsUpdate => 0x1C | .endSettingsUpdate => 0x1D

/-- The default event codes of R71. Only `connect` is stated by the source; the other values are the spec's own choice
D5 (log entry 10). -/
def defaultEvtCode : EvtName → Byte
  | .connect => 0x01 | .disconnect => 0x02 | .debug => 0x03
  | .authSucceeded => 0x04 | .authFailed => 0x05 | .error => 0x06
  | .settingsSaved => 0x07 | .dataRequest => 0x08 | .dataBlocksSent => 0x09
  | .dataIndicated => 0x0A

/-- The values of R8 for this hardware. -/
def cfg : Config where
  classId := 0xBC
  maxPayload := 251
  bufCap := 256
  powerNegMin := 128
  diagLen := 5
  addrLen := 6
  uuidLen := 16
  versionLen := 2
  cmdCode := defaultCmdCode
  evtCode := defaultEvtCode

/-! ## The frame format (R60) -/

/-- A frame: the four header bytes and the payload (R60). -/
def frame (c : Config) (mt code : Byte) (p : Bytes) : Bytes :=
  mt :: BitVec.ofNat 8 p.length :: c.classId :: code :: p

/-! ## Request formats (R67) -/

/-- `tc8(v)` (R11): the two's complement byte of a signed value, "negative values add 256 before truncation". -/
def tc8 (v : Int) : Byte := if v < 0 then BitVec.ofInt 8 (v + 256) else BitVec.ofInt 8 v

/-- `le16(v)` (R48): the low byte first. -/
def le16 (v : Half) : Bytes := [v.extractLsb' 0 8, v.extractLsb' 8 8]

/-- `CMD-NONE`. -/
def cmdNone : Bytes := []

/-- `CMD-BOOL`: "booleans as a single byte 0/1". -/
def cmdBool (f : Bool) : Bytes := [if f then 1 else 0]

/-- `CMD-U8`. -/
def cmdU8 (v : Byte) : Bytes := [v]

/-- `CMD-I8`. -/
def cmdI8 (v : Int) : Bytes := [tc8 v]

/-- `CMD-U16LE`. -/
def cmdU16le (v : Half) : Bytes := le16 v

/-- `CMD-UUID`: the bytes verbatim, none where their number is wrong (R102, R114). -/
def cmdUuid (c : Config) (u : Bytes) : Option Bytes := if u.length = c.uuidLen then some u else none

/-- `CMD-BLOCKS`: type, encoding, repeat count, then the data; none where they exceed a payload (R102, R130). -/
def cmdBlocks (c : Config) (t e r : Byte) (d : Bytes) : Option Bytes :=
  if 3 + d.length ≤ c.maxPayload then some (t :: e :: r :: d) else none

/-- `CMD-BYTES`: the bytes verbatim, none where they exceed a payload (R102, R131). -/
def cmdBytes (c : Config) (d : Bytes) : Option Bytes := if d.length ≤ c.maxPayload then some d else none

/-! ## The encoder (R100) -/

/-- The mnemonic of a request (R79). -/
def CommandRequest.name : CommandRequest → CmdName
  | .reset _ => .reset
  | .ping => .ping
  | .readBtAddress => .readBtAddress
  | .readVersion => .readVersion
  | .writeVersion _ => .writeVersion
  | .readLoudness => .readLoudness
  | .writeLoudness _ => .writeLoudness
  | .readMode => .readMode
  | .writeMode _ => .writeMode
  | .readUuid => .readUuid
  | .writeUuid _ => .writeUuid
  | .readMajor => .readMajor
  | .writeMajor _ => .writeMajor
  | .readMinor => .readMinor
  | .writeMinor _ => .writeMinor
  | .readPower => .readPower
  | .writePower _ => .writePower
  | .readAdvEnabled => .readAdvEnabled
  | .writeAdvEnabled _ => .writeAdvEnabled
  | .readEventsEnabled => .readEventsEnabled
  | .writeEventsEnabled _ => .writeEventsEnabled
  | .readTargetSpeed => .readTargetSpeed
  | .readModelNumber => .readModelNumber
  | .readFirmwareVersion => .readFirmwareVersion
  | .readCrashReport => .readCrashReport
  | .cancelDataBlocks => .cancelDataBlocks
  | .sendDataBlocks _ _ _ _ => .sendDataBlocks
  | .respondDataRequest _ => .respondDataRequest
  | .beginSettingsUpdate => .beginSettingsUpdate
  | .endSettingsUpdate => .endSettingsUpdate

/-- The payload of a request, by the command's own rule R104 to R133; none is `INVALID_ARGUMENT` (R102). -/
def CommandRequest.payload (c : Config) : CommandRequest → Option Bytes
  | .reset f => some (cmdBool f)
  | .ping => some cmdNone
  | .readBtAddress => some cmdNone
  | .readVersion => some cmdNone
  | .writeVersion v => some (cmdU8 v)
  | .readLoudness => some cmdNone
  | .writeLoudness v => some (cmdU8 v)
  | .readMode => some cmdNone
  | .writeMode v => some (cmdU8 v)
  | .readUuid => some cmdNone
  | .writeUuid u => cmdUuid c u
  | .readMajor => some cmdNone
  | .writeMajor v => some (cmdU16le v)
  | .readMinor => some cmdNone
  | .writeMinor v => some (cmdU16le v)
  | .readPower => some cmdNone
  | .writePower v => some (cmdI8 v.toInt)
  | .readAdvEnabled => some cmdNone
  | .writeAdvEnabled f => some (cmdBool f)
  | .readEventsEnabled => some cmdNone
  | .writeEventsEnabled f => some (cmdBool f)
  | .readTargetSpeed => some cmdNone
  | .readModelNumber => some cmdNone
  | .readFirmwareVersion => some cmdNone
  | .readCrashReport => some cmdNone
  | .cancelDataBlocks => some cmdNone
  | .sendDataBlocks t e r d => cmdBlocks c t e r d
  | .respondDataRequest d => cmdBytes c d
  | .beginSettingsUpdate => some cmdNone
  | .endSettingsUpdate => some cmdNone

/-- `ENCODE` (R100) as a function: the frame of a request, none where `ENCODE` raises `INVALID_ARGUMENT`. -/
def encodeRequest (c : Config) (cmd : CommandRequest) : Option Bytes :=
  (cmd.payload c).map (frame c mtCommand (c.cmdCode cmd.name))

/-- The frame of a response or an event with payload `p`, none where no frame can hold it (R60, R62). -/
def inboundFrame (c : Config) (mt code : Byte) (p : Bytes) : Option Bytes :=
  if p.length ≤ c.maxPayload then some (frame c mt code p) else none

/-- The wire bytes of an instruction under a configuration: none for an operation row, which has "no wire encoding of its
own", and for an ill-formed term. -/
def encodeWith (c : Config) : Instr → Option Bytes
  | .reset f => encodeRequest c (.reset f)
  | .ping => encodeRequest c (.ping)
  | .readBtAddress => encodeRequest c (.readBtAddress)
  | .readVersion => encodeRequest c (.readVersion)
  | .writeVersion v => encodeRequest c (.writeVersion v)
  | .readLoudness => encodeRequest c (.readLoudness)
  | .writeLoudness v => encodeRequest c (.writeLoudness v)
  | .readMode => encodeRequest c (.readMode)
  | .writeMode v => encodeRequest c (.writeMode v)
  | .readUuid => encodeRequest c (.readUuid)
  | .writeUuid u => encodeRequest c (.writeUuid u)
  | .readMajor => encodeRequest c (.readMajor)
  | .writeMajor v => encodeRequest c (.writeMajor v)
  | .readMinor => encodeRequest c (.readMinor)
  | .writeMinor v => encodeRequest c (.writeMinor v)
  | .readPower => encodeRequest c (.readPower)
  | .writePower v => encodeRequest c (.writePower v)
  | .readAdvEnabled => encodeRequest c (.readAdvEnabled)
  | .writeAdvEnabled f => encodeRequest c (.writeAdvEnabled f)
  | .readEventsEnabled => encodeRequest c (.readEventsEnabled)
  | .writeEventsEnabled f => encodeRequest c (.writeEventsEnabled f)
  | .readTargetSpeed => encodeRequest c (.readTargetSpeed)
  | .readModelNumber => encodeRequest c (.readModelNumber)
  | .readFirmwareVersion => encodeRequest c (.readFirmwareVersion)
  | .readCrashReport => encodeRequest c (.readCrashReport)
  | .cancelDataBlocks => encodeRequest c (.cancelDataBlocks)
  | .sendDataBlocks t e r d => encodeRequest c (.sendDataBlocks t e r d)
  | .respondDataRequest d => encodeRequest c (.respondDataRequest d)
  | .beginSettingsUpdate => encodeRequest c (.beginSettingsUpdate)
  | .endSettingsUpdate => encodeRequest c (.endSettingsUpdate)
  | .respReset p => inboundFrame c mtCommand (c.cmdCode .reset) p
  | .respPing p => inboundFrame c mtCommand (c.cmdCode .ping) p
  | .respReadBtAddress p => inboundFrame c mtCommand (c.cmdCode .readBtAddress) p
  | .respReadVersion p => inboundFrame c mtCommand (c.cmdCode .readVersion) p
  | .respWriteVersion p => inboundFrame c mtCommand (c.cmdCode .writeVersion) p
  | .respReadLoudness p => inboundFrame c mtCommand (c.cmdCode .readLoudness) p
  | .respWriteLoudness p => inboundFrame c mtCommand (c.cmdCode .writeLoudness) p
  | .respReadMode p => inboundFrame c mtCommand (c.cmdCode .readMode) p
  | .respWriteMode p => inboundFrame c mtCommand (c.cmdCode .writeMode) p
  | .respReadUuid p => inboundFrame c mtCommand (c.cmdCode .readUuid) p
  | .respWriteUuid p => inboundFrame c mtCommand (c.cmdCode .writeUuid) p
  | .respReadMajor p => inboundFrame c mtCommand (c.cmdCode .readMajor) p
  | .respWriteMajor p => inboundFrame c mtCommand (c.cmdCode .writeMajor) p
  | .respReadMinor p => inboundFrame c mtCommand (c.cmdCode .readMinor) p
  | .respWriteMinor p => inboundFrame c mtCommand (c.cmdCode .writeMinor) p
  | .respReadPower p => inboundFrame c mtCommand (c.cmdCode .readPower) p
  | .respWritePower p => inboundFrame c mtCommand (c.cmdCode .writePower) p
  | .respReadAdvEnabled p => inboundFrame c mtCommand (c.cmdCode .readAdvEnabled) p
  | .respWriteAdvEnabled p => inboundFrame c mtCommand (c.cmdCode .writeAdvEnabled) p
  | .respReadEventsEnabled p => inboundFrame c mtCommand (c.cmdCode .readEventsEnabled) p
  | .respWriteEventsEnabled p => inboundFrame c mtCommand (c.cmdCode .writeEventsEnabled) p
  | .respReadTargetSpeed p => inboundFrame c mtCommand (c.cmdCode .readTargetSpeed) p
  | .respReadModelNumber p => inboundFrame c mtCommand (c.cmdCode .readModelNumber) p
  | .respReadFirmwareVersion p => inboundFrame c mtCommand (c.cmdCode .readFirmwareVersion) p
  | .respReadCrashReport p => inboundFrame c mtCommand (c.cmdCode .readCrashReport) p
  | .respCancelDataBlocks p => inboundFrame c mtCommand (c.cmdCode .cancelDataBlocks) p
  | .respSendDataBlocks p => inboundFrame c mtCommand (c.cmdCode .sendDataBlocks) p
  | .respRespondDataRequest p => inboundFrame c mtCommand (c.cmdCode .respondDataRequest) p
  | .respBeginSettingsUpdate p => inboundFrame c mtCommand (c.cmdCode .beginSettingsUpdate) p
  | .respEndSettingsUpdate p => inboundFrame c mtCommand (c.cmdCode .endSettingsUpdate) p
  | .evtConnect p => inboundFrame c mtEvent (c.evtCode .connect) p
  | .evtDisconnect p => inboundFrame c mtEvent (c.evtCode .disconnect) p
  | .evtDebug p => inboundFrame c mtEvent (c.evtCode .debug) p
  | .evtAuthSucceeded p => inboundFrame c mtEvent (c.evtCode .authSucceeded) p
  | .evtAuthFailed p => inboundFrame c mtEvent (c.evtCode .authFailed) p
  | .evtError p => inboundFrame c mtEvent (c.evtCode .error) p
  | .evtSettingsSaved p => inboundFrame c mtEvent (c.evtCode .settingsSaved) p
  | .evtDataRequest p => inboundFrame c mtEvent (c.evtCode .dataRequest) p
  | .evtDataBlocksSent p => inboundFrame c mtEvent (c.evtCode .dataBlocksSent) p
  | .evtDataIndicated p => inboundFrame c mtEvent (c.evtCode .dataIndicated) p
  | .encode _ | .transmit _ | .feed _ | .feedChunk _ | .resync | .opReset => none

/-- The wire bytes of an instruction of this hardware. -/
def encode (i : Instr) : Option Bytes := encodeWith cfg i

/-! ## The decoder -/

/-- The two directions of the wire (R2). The same bytes name a command to the device and a response from it
(42_dispatch_responses R192), so a frame is decoded for the direction it travels in (log entry 4). -/
inductive Direction where
  | hostToDevice
  | deviceToHost
  deriving DecidableEq, Repr

/-- Why bytes are no frame of a table row (R75). -/
inductive DecodeError where
  /-- The bytes end before the frame does. -/
  | truncated
  /-- Bytes follow the end of the frame. -/
  | trailing
  /-- Byte 0 is no message type of this direction (R61). -/
  | badMessageType (b : Byte)
  /-- Byte 1 is above `MAX_PAYLOAD` (R62). -/
  | badLength (b : Byte)
  /-- Byte 2 is not `CLASS_ID` (R63). -/
  | foreignClass (b : Byte)
  /-- Byte 3 is in no row of the table (R64). -/
  | unrecognizedCode (b : Byte)
  /-- The payload is none that the command's request format produces (R67). -/
  | badArgument (m : CmdName)
  deriving DecidableEq, Repr

/-- `cmd_code(m) = code` for at most one `m` (R170). -/
def findCmd (c : Config) (code : Byte) : Option CmdName := CmdName.all.find? fun m => c.cmdCode m == code

/-- `evt_code(m) = code` for at most one `m` (R170). -/
def findEvt (c : Config) (code : Byte) : Option EvtName := EvtName.all.find? fun m => c.evtCode m == code

/-- The message type, code and payload of one whole frame of this protocol (R60, R74, R75). -/
def splitFrame (c : Config) : Bytes → Except DecodeError (Byte × Byte × Bytes)
  | mt :: len :: cls :: code :: p =>
    if mt ≠ mtCommand ∧ mt ≠ mtEvent then .error (.badMessageType mt)
    else if c.maxPayload < len.toNat then .error (.badLength len)
    else if p.length < len.toNat then .error .truncated
    else if len.toNat < p.length then .error .trailing
    else if cls ≠ c.classId then .error (.foreignClass cls)
    else .ok (mt, code, p)
  | _ => .error .truncated

/-- The inverse of `CMD-NONE`. -/
def argNone (cmd : CommandRequest) (p : Bytes) : Option CommandRequest := if p = [] then some cmd else none

/-- The inverse of `CMD-BOOL`. -/
def argBool (cmd : Bool → CommandRequest) (p : Bytes) : Option CommandRequest :=
  if p = [0] then some (cmd false) else if p = [1] then some (cmd true) else none

/-- The inverse of `CMD-U8`, and of `CMD-I8`, whose byte is the two's complement of its value. -/
def argU8 (cmd : Byte → CommandRequest) : Bytes → Option CommandRequest
  | [v] => some (cmd v)
  | _ => none

/-- The inverse of `CMD-U16LE`. -/
def argU16le (cmd : Half → CommandRequest) : Bytes → Option CommandRequest
  | [lo, hi] => some (cmd (hi ++ lo))
  | _ => none

/-- The inverse of `CMD-UUID`. -/
def argUuid (c : Config) (cmd : Bytes → CommandRequest) (p : Bytes) : Option CommandRequest :=
  if p.length = c.uuidLen then some (cmd p) else none

/-- The inverse of `CMD-BLOCKS`. -/
def argBlocks (cmd : Byte → Byte → Byte → Bytes → CommandRequest) : Bytes → Option CommandRequest
  | t :: e :: r :: d => some (cmd t e r d)
  | _ => none

/-- The request of mnemonic `m` whose payload is `p`, by inverting R67 (R103). -/
def decodeArgs (c : Config) (m : CmdName) (p : Bytes) : Option CommandRequest :=
  match m with
  | .reset => argBool .reset p
  | .ping => argNone .ping p
  | .readBtAddress => argNone .readBtAddress p
  | .readVersion => argNone .readVersion p
  | .writeVersion => argU8 .writeVersion p
  | .readLoudness => argNone .readLoudness p
  | .writeLoudness => argU8 .writeLoudness p
  | .readMode => argNone .readMode p
  | .writeMode => argU8 .writeMode p
  | .readUuid => argNone .readUuid p
  | .writeUuid => argUuid c .writeUuid p
  | .readMajor => argNone .readMajor p
  | .writeMajor => argU16le .writeMajor p
  | .readMinor => argNone .readMinor p
  | .writeMinor => argU16le .writeMinor p
  | .readPower => argNone .readPower p
  | .writePower => argU8 .writePower p
  | .readAdvEnabled => argNone .readAdvEnabled p
  | .writeAdvEnabled => argBool .writeAdvEnabled p
  | .readEventsEnabled => argNone .readEventsEnabled p
  | .writeEventsEnabled => argBool .writeEventsEnabled p
  | .readTargetSpeed => argNone .readTargetSpeed p
  | .readModelNumber => argNone .readModelNumber p
  | .readFirmwareVersion => argNone .readFirmwareVersion p
  | .readCrashReport => argNone .readCrashReport p
  | .cancelDataBlocks => argNone .cancelDataBlocks p
  | .sendDataBlocks => argBlocks .sendDataBlocks p
  | .respondDataRequest => some (.respondDataRequest p)
  | .beginSettingsUpdate => argNone .beginSettingsUpdate p
  | .endSettingsUpdate => argNone .endSettingsUpdate p

/-- The command row of a request. -/
def Instr.ofRequest : CommandRequest → Instr
  | .reset f => .reset f
  | .ping => .ping
  | .readBtAddress => .readBtAddress
  | .readVersion => .readVersion
  | .writeVersion v => .writeVersion v
  | .readLoudness => .readLoudness
  | .writeLoudness v => .writeLoudness v
  | .readMode => .readMode
  | .writeMode v => .writeMode v
  | .readUuid => .readUuid
  | .writeUuid u => .writeUuid u
  | .readMajor => .readMajor
  | .writeMajor v => .writeMajor v
  | .readMinor => .readMinor
  | .writeMinor v => .writeMinor v
  | .readPower => .readPower
  | .writePower v => .writePower v
  | .readAdvEnabled => .readAdvEnabled
  | .writeAdvEnabled f => .writeAdvEnabled f
  | .readEventsEnabled => .readEventsEnabled
  | .writeEventsEnabled f => .writeEventsEnabled f
  | .readTargetSpeed => .readTargetSpeed
  | .readModelNumber => .readModelNumber
  | .readFirmwareVersion => .readFirmwareVersion
  | .readCrashReport => .readCrashReport
  | .cancelDataBlocks => .cancelDataBlocks
  | .sendDataBlocks t e r d => .sendDataBlocks t e r d
  | .respondDataRequest d => .respondDataRequest d
  | .beginSettingsUpdate => .beginSettingsUpdate
  | .endSettingsUpdate => .endSettingsUpdate

/-- The response row of a command with payload `p`. -/
def Instr.ofResponse (m : CmdName) (p : Bytes) : Instr :=
  match m with
  | .reset => .respReset p
  | .ping => .respPing p
  | .readBtAddress => .respReadBtAddress p
  | .readVersion => .respReadVersion p
  | .writeVersion => .respWriteVersion p
  | .readLoudness => .respReadLoudness p
  | .writeLoudness => .respWriteLoudness p
  | .readMode => .respReadMode p
  | .writeMode => .respWriteMode p
  | .readUuid => .respReadUuid p
  | .writeUuid => .respWriteUuid p
  | .readMajor => .respReadMajor p
  | .writeMajor => .respWriteMajor p
  | .readMinor => .respReadMinor p
  | .writeMinor => .respWriteMinor p
  | .readPower => .respReadPower p
  | .writePower => .respWritePower p
  | .readAdvEnabled => .respReadAdvEnabled p
  | .writeAdvEnabled => .respWriteAdvEnabled p
  | .readEventsEnabled => .respReadEventsEnabled p
  | .writeEventsEnabled => .respWriteEventsEnabled p
  | .readTargetSpeed => .respReadTargetSpeed p
  | .readModelNumber => .respReadModelNumber p
  | .readFirmwareVersion => .respReadFirmwareVersion p
  | .readCrashReport => .respReadCrashReport p
  | .cancelDataBlocks => .respCancelDataBlocks p
  | .sendDataBlocks => .respSendDataBlocks p
  | .respondDataRequest => .respRespondDataRequest p
  | .beginSettingsUpdate => .respBeginSettingsUpdate p
  | .endSettingsUpdate => .respEndSettingsUpdate p

/-- The row of an event with payload `p`. -/
def Instr.ofEvent (m : EvtName) (p : Bytes) : Instr :=
  match m with
  | .connect => .evtConnect p
  | .disconnect => .evtDisconnect p
  | .debug => .evtDebug p
  | .authSucceeded => .evtAuthSucceeded p
  | .authFailed => .evtAuthFailed p
  | .error => .evtError p
  | .settingsSaved => .evtSettingsSaved p
  | .dataRequest => .evtDataRequest p
  | .dataBlocksSent => .evtDataBlocksSent p
  | .dataIndicated => .evtDataIndicated p

/-- The direction an instruction's frame travels in, none for an operation. -/
def Instr.direction : Instr → Option Direction
  | .reset _ | .ping | .readBtAddress | .readVersion | .writeVersion _
  | .readLoudness | .writeLoudness _ | .readMode | .writeMode _ | .readUuid
  | .writeUuid _ | .readMajor | .writeMajor _ | .readMinor | .writeMinor _
  | .readPower | .writePower _ | .readAdvEnabled | .writeAdvEnabled _ | .readEventsEnabled
  | .writeEventsEnabled _ | .readTargetSpeed | .readModelNumber | .readFirmwareVersion | .readCrashReport
  | .cancelDataBlocks | .sendDataBlocks _ _ _ _ | .respondDataRequest _ | .beginSettingsUpdate | .endSettingsUpdate => some .hostToDevice
  | .respReset _ | .respPing _ | .respReadBtAddress _ | .respReadVersion _
  | .respWriteVersion _ | .respReadLoudness _ | .respWriteLoudness _ | .respReadMode _
  | .respWriteMode _ | .respReadUuid _ | .respWriteUuid _ | .respReadMajor _
  | .respWriteMajor _ | .respReadMinor _ | .respWriteMinor _ | .respReadPower _
  | .respWritePower _ | .respReadAdvEnabled _ | .respWriteAdvEnabled _ | .respReadEventsEnabled _
  | .respWriteEventsEnabled _ | .respReadTargetSpeed _ | .respReadModelNumber _ | .respReadFirmwareVersion _
  | .respReadCrashReport _ | .respCancelDataBlocks _ | .respSendDataBlocks _ | .respRespondDataRequest _
  | .respBeginSettingsUpdate _ | .respEndSettingsUpdate _ | .evtConnect _ | .evtDisconnect _
  | .evtDebug _ | .evtAuthSucceeded _ | .evtAuthFailed _ | .evtError _
  | .evtSettingsSaved _ | .evtDataRequest _ | .evtDataBlocksSent _ | .evtDataIndicated _ => some .deviceToHost
  | .encode _ | .transmit _ | .feed _ | .feedChunk _ | .resync | .opReset => none

/-- The command a frame from the host carries: total, and rejecting by name. -/
def decodeOutbound (c : Config) (bs : Bytes) : Except DecodeError CommandRequest :=
  match splitFrame c bs with
  | .error e => .error e
  | .ok (mt, code, p) =>
    if mt ≠ mtCommand then .error (.badMessageType mt)
    else match findCmd c code with
      | none => .error (.unrecognizedCode code)
      | some m => match decodeArgs c m p with
        | none => .error (.badArgument m)
        | some cmd => .ok cmd

/-- The response or event row of a frame from the device: total, and rejecting by name. -/
def decodeInbound (c : Config) (bs : Bytes) : Except DecodeError Instr :=
  match splitFrame c bs with
  | .error e => .error e
  | .ok (mt, code, p) =>
    if mt = mtCommand then match findCmd c code with
      | none => .error (.unrecognizedCode code)
      | some m => .ok (.ofResponse m p)
    else match findEvt c code with
      | none => .error (.unrecognizedCode code)
      | some m => .ok (.ofEvent m p)

/-- The instruction of a frame that travels in direction `d`, under a configuration. -/
def decodeWith (c : Config) (d : Direction) (bs : Bytes) : Except DecodeError Instr :=
  match d with
  | .hostToDevice => match decodeOutbound c bs with
    | .error e => .error e
    | .ok cmd => .ok (.ofRequest cmd)
  | .deviceToHost => decodeInbound c bs

/-- The instruction of a frame of this hardware that travels in direction `d`. -/
def decode (d : Direction) (bs : Bytes) : Except DecodeError Instr := decodeWith cfg d bs

/-! ## The table's words (R66) -/

/-- `n` payload bytes of an instruction whose bits are `w`, from payload byte `k` on: byte `k` is bits `39 + 8k` to
`32 + 8k`. -/
def wordPayload (w : Nat) : Nat → Nat → Bytes
  | _, 0 => []
  | k, n + 1 => BitVec.ofNat 8 (w >>> (32 + 8 * k)) :: wordPayload w (k + 1) n

/-- The bytes, in wire order, of an instruction whose bits are `w`: the header word `H` of R66 has byte 0 as its most
significant byte, and byte 1 says how many payload bytes follow. R66 covers the header only. DESIGN CHOICE (log entry 4): a
word shorter than the frame its length byte declares has the missing payload bytes read as 0, and bits above that frame, or
above `nbits`, are dropped. -/
def wordBytes (nbits w : Nat) : Bytes :=
  let h := w % 2 ^ nbits
  let len : Byte := BitVec.ofNat 8 (h >>> 16)
  BitVec.ofNat 8 (h >>> 24) :: len :: BitVec.ofNat 8 (h >>> 8) :: BitVec.ofNat 8 h :: wordPayload h 0 len.toNat

/-- The direction a table word is read in. A word names a command where it is one (a command row's mask fixes the length
byte, so it is the narrower row), and a response or an event otherwise (DESIGN CHOICE, log entry 4). -/
def wordDirection (nbits w : Nat) : Direction :=
  match decode .hostToDevice (wordBytes nbits w) with
  | .ok _ => .hostToDevice
  | .error _ => .deviceToHost

/-- The instruction the decoder reads from a table word, none where it refuses. -/
def decodeTableWord (nbits w : Nat) : Option Instr :=
  match decode (wordDirection nbits w) (wordBytes nbits w) with
  | .ok i => some i
  | .error _ => none

end Sys2Proof
end

