-- ==== Sys2Proof/Machine/State.lean ====
section
/-! DEFINITION. The state of the machine (spec/10_state.md), the results its operations return (spec/30_encoding.md R78,
spec/60_exceptions.md R240), and the reasons a step can stop. -/

namespace Sys2Proof.Machine

open Sys2Proof

/-! ## What an operation returns -/

/-- Whether a frame was a response or an event (R240, "kind"). -/
inductive Kind where
  | resp (m : CmdName)
  | evt (m : EvtName)
  deriving DecidableEq, Repr

/-- The closed enumeration of statuses (R240), each with the information its row says it carries. -/
inductive Status where
  | ok
  /-- A first byte whose low 7 bits are nonzero (R241). -/
  | errFraming (b : Byte)
  /-- A length byte above `MAX_PAYLOAD` (R242). -/
  | errLength (b : Byte)
  /-- A payload shorter than the decode format needs: the kind and mnemonic, and the payload's length (R243). -/
  | errMalformed (k : Kind) (len : Nat)
  /-- A byte-sequence argument of an illegal length (R244). -/
  | invalidArgument (m : CmdName)
  deriving DecidableEq, Repr

/-- A decoded value (R78). Text is the list of its characters (log entry 17). -/
inductive Value where
  | respCode (b : Byte)
  | raw (bs : Bytes)
  | text (cs : List Char)
  | uuid (bs : Bytes)
  | u8 (b : Byte)
  | i8 (v : Int)
  | bool (f : Bool)
  | u16 (v : Half)
  deriving DecidableEq, Repr

/-- A dispatch record `RESP(m, val)` or `EVT(m, val)` (R78). -/
structure Record where
  kind : Kind
  val : Value
  deriving DecidableEq, Repr

/-- The optional output beside a status: `FEED`'s dispatch record (R78) or `ENCODE`'s frame (R100). -/
inductive Output where
  | none
  | record (r : Record)
  | frame (f : Bytes)
  deriving DecidableEq, Repr

/-- The result `(status, out)` of an operation (R12). -/
structure Result where
  status : Status
  out : Output
  deriving DecidableEq, Repr

/-! ## The state -/

/-- A byte memory: (offset, byte) pairs with strictly rising offsets. An offset that is not listed has no value
(log entry 7). -/
abbrev Memory := List Host.Cell

/-- The state record of a codec instance (R20). -/
structure Codec where
  /-- `rx_buf`, the accumulation buffer. -/
  rxBuf : Memory
  /-- `rx_off`, the write offset: the number of bytes of the current frame already stored (R22). -/
  rxOff : Nat
  /-- `rx_len`, the payload length once known. -/
  rxLen : Byte
  /-- `busy`, the busy guard (R25). -/
  busy : Bool
  /-- `tx_log`, every frame handed to the output sink, in order. -/
  txLog : List Bytes
  deriving DecidableEq, Repr

/-- What a caller asks for next: an operation or a row as a typed value (R77), or the bytes of one frame of the wire,
which the machine decodes when it fetches them (log entry 2). -/
inductive Request where
  | call (i : Instr)
  | wire (d : Direction) (bs : Bytes)
  deriving DecidableEq, Repr

/-- The machine's state: the codec, and the two ports through which the caller uses it. -/
structure State where
  /-- The state record of R20. -/
  codec : Codec
  /-- The requests the caller has yet to make, oldest first (R14, R55; log entry 2). -/
  requests : List Request
  /-- What the last operation returned: one result, or one for each byte of a chunk (R78, R146; log entry 6). -/
  results : List Result
  deriving DecidableEq, Repr

/-- The values of R32: a new instance. `rx_buf` lists nothing, since its contents are unspecified. -/
def Codec.reset : Codec where
  rxBuf := []
  rxOff := 0
  rxLen := 0
  busy := false
  txLog := []

/-- The machine right after reset: a new instance (R32) that no operation has been asked of (log entries 2 and 6). -/
def State.reset : State where
  codec := Codec.reset
  requests := []
  results := []

/-! ## Why a step stops -/

/-- Faults. -/
inductive Fault where
  /-- Raised by an access of `rx_buf` at or past `BUF_CAP` (R12, R43): safe, the machine stops (log entry 8). -/
  | bufferOverrun
  /-- Raised by a read of a byte of `rx_buf` that nothing has written since reset (R32): safe, the machine stops
  (log entry 7). -/
  | unwrittenByte
  deriving DecidableEq, Repr

/-- Refusals. -/
inductive Refusal where
  /-- Raised by `exec` for an instruction that has no meaning yet: safe, the machine stops. -/
  | notModelled (mnemonic : String)
  /-- Raised by a response or event row whose payload is longer than `MAX_PAYLOAD`: it names no frame (R60, R62). Safe,
  the machine stops (log entry 20). -/
  | notAFrame
  /-- Raised by a fetch of bytes to be sent that are no command frame, which the encoder cannot produce (R76). Safe, the
  machine stops (log entry 20). -/
  | notACommandFrame (e : DecodeError)
  deriving DecidableEq, Repr

end Sys2Proof.Machine
end

