-- ==== Sys2Proof/Machine/Flags.lean ====
section
/-! DEFINITION. The one stored flag, the busy guard (spec/10_state.md R25, spec/41_parser.md R151). There are no condition
codes (R26). -/

namespace Sys2Proof.Machine

open Sys2Proof

/-- `busy` after a successful `TRANSMIT` (R101): set, whatever it was. -/
def busyAfterTransmit (_ : Bool) : Bool := true

/-- `busy` after a frame with message type `mt` completes (R140, R143): cleared by a Command frame, "unconditionally,
whether or not a matching decoder existed", and not touched by an Event frame. -/
def busyAfterFrame (mt : Byte) (busy : Bool) : Bool := if mt = mtCommand then false else busy

end Sys2Proof.Machine
end

