-- ==== Sys2Proof/Machine/Operands.lean ====
section
/-! DEFINITION. The decode formats: how the dispatch decoder turns a payload into a value (spec/30_encoding.md R68), their
primitives (spec/42_dispatch_responses.md R172 to R179), and which format each code has (R70, R71). The request formats
of R67 are in Decode.lean, since the encoder is made of them. -/

namespace Sys2Proof.Machine

open Sys2Proof

/-! ## Primitives -/

/-- The digits of R172: `0`-`9` and uppercase `A`-`F`. -/
def hexDigit (n : Nat) : Char := ['0', '1', '2', '3', '4', '5', '6', '7', '8', '9', 'A', 'B', 'C', 'D', 'E', 'F'].getD n '0'

/-- `hex2(b)` (R172): two digits, the high nibble first. -/
def hex2 (b : Byte) : List Char := [hexDigit (b.toNat / 16), hexDigit (b.toNat % 16)]

/-- The digits of a byte sequence, in payload order, with no separators; on six bytes it is `hex12` (R173). -/
def hexString (bs : Bytes) : List Char := bs.flatMap hex2

/-- Puts `x` before the last element. -/
def beforeLast (x : Char) : List Char → List Char
  | [] => [x]
  | [a] => [x, a]
  | a :: t => a :: beforeLast x t

/-- `model_string` (R174): the digits with a dash before the last one, prefixed `BC`. -/
def modelString (bs : Bytes) : List Char := 'B' :: 'C' :: beforeLast '-' (hexString bs)

/-- Drops one leading zero digit, and only one (R175). -/
def dropZero : List Char → List Char
  | [] => []
  | a :: t => if a = '0' then t else a :: t

/-- `fw_string` (R175): the digits less one leading zero, joined with dots. -/
def fwString (bs : Bytes) : List Char := (dropZero (hexString bs)).intersperse '.'

/-- `sext_8(b)` (R176): values from `POWER_NEG_MIN` on are negative. -/
def sext8 (c : Config) (b : Byte) : Int := if b.toNat < c.powerNegMin then b.toNat else (b.toNat : Int) - 256

/-- `bool(b)` (R177): "any nonzero byte decodes to true". -/
def boolOf (b : Byte) : Bool := b != 0

/-- `be16(p)` (R49, R178): byte 0 is the high byte. -/
def be16 (hi lo : Byte) : Half := hi ++ lo

/-! ## The formats (R68) -/

/-- The decode formats. -/
inductive DecFormat where
  | code | raw | raw5 | addr6 | uuid16 | u8 | i8 | bool | u16be | model | fwver
  deriving DecidableEq, Repr

/-- The number of payload bytes a format reads. -/
def DecFormat.need (c : Config) : DecFormat → Nat
  | .code => 1
  | .raw => 0
  | .raw5 => c.diagLen
  | .addr6 => c.addrLen
  | .uuid16 => c.uuidLen
  | .u8 => 1
  | .i8 => 1
  | .bool => 1
  | .u16be => 2
  | .model => c.versionLen
  | .fwver => c.versionLen

/-- Payload byte `i`. It is read only where the payload has it (`decodeFormat`). -/
def byteAt (p : Bytes) (i : Nat) : Byte := p.getD i 0

/-- The decoded value of a payload that has the bytes the format needs. -/
def DecFormat.value (c : Config) (p : Bytes) : DecFormat → Value
  | .code => .respCode (byteAt p 0)
  | .raw => .raw p
  | .raw5 => .raw (p.take c.diagLen)
  | .addr6 => .text (hexString (p.take c.addrLen))
  | .uuid16 => .uuid (p.take c.uuidLen)
  | .u8 => .u8 (byteAt p 0)
  | .i8 => .i8 (sext8 c (byteAt p 0))
  | .bool => .bool (boolOf (byteAt p 0))
  | .u16be => .u16 (be16 (byteAt p 0) (byteAt p 1))
  | .model => .text (modelString (p.take c.versionLen))
  | .fwver => .text (fwString (p.take c.versionLen))

/-- The response format of each command (R70, last column). -/
def respFormat : CmdName → DecFormat
  | .reset => .code
  | .ping => .raw5
  | .readBtAddress => .addr6
  | .readVersion => .raw
  | .writeVersion => .code
  | .readLoudness => .u8
  | .writeLoudness => .code
  | .readMode => .u8
  | .writeMode => .code
  | .readUuid => .uuid16
  | .writeUuid => .code
  | .readMajor => .u16be
  | .writeMajor => .code
  | .readMinor => .u16be
  | .writeMinor => .code
  | .readPower => .i8
  | .writePower => .code
  | .readAdvEnabled => .bool
  | .writeAdvEnabled => .code
  | .readEventsEnabled => .bool
  | .writeEventsEnabled => .code
  | .readTargetSpeed => .raw
  | .readModelNumber => .model
  | .readFirmwareVersion => .fwver
  | .readCrashReport => .raw
  | .cancelDataBlocks => .code
  | .sendDataBlocks => .code
  | .respondDataRequest => .code
  | .beginSettingsUpdate => .code
  | .endSettingsUpdate => .code

/-- The format of each event (R71, last column). -/
def evtFormat : EvtName → DecFormat
  | .connect => .raw
  | .disconnect => .raw
  | .debug => .raw
  | .authSucceeded => .raw
  | .authFailed => .raw
  | .error => .u8
  | .settingsSaved => .raw
  | .dataRequest => .raw
  | .dataBlocksSent => .raw
  | .dataIndicated => .raw

/-- `DecodeFormat` (R170, R171): a short payload is not read at all, and bytes beyond the need are ignored. -/
def decodeFormat (c : Config) (fmt : DecFormat) (p : Bytes) (k : Kind) : Result :=
  if p.length < fmt.need c then ⟨.errMalformed k p.length, .none⟩ else ⟨.ok, .record ⟨k, fmt.value c p⟩⟩

/-- `Decode(mt, code, p)` (R170): a pure function of its arguments and the tables. -/
def dispatch (c : Config) (mt code : Byte) (p : Bytes) : Result :=
  if mt = mtCommand then
    match findCmd c code with
    | some m => decodeFormat c (respFormat m) p (.resp m)
    | none => ⟨.ok, .none⟩
  else
    match findEvt c code with
    | some m => decodeFormat c (evtFormat m) p (.evt m)
    | none => ⟨.ok, .none⟩

end Sys2Proof.Machine
end

