-- ==== Sys2Proof/Machine/Ops.lean ====
section
/-! DEFINITION. The operations the instructions share: the receive buffer (spec/20_memory.md), raising a status
(spec/60_exceptions.md R250), and the six operations of the codec (spec/00_scope.md R14), each a function of the
configuration and of the state record of R20 alone. -/

namespace Sys2Proof.Machine

open Sys2Proof

/-! ## The receive buffer -/

/-- The canonical form: strictly rising offsets. -/
def Memory.wf : Memory → Bool
  | [] => true
  | (a, _) :: t => t.all (fun x => decide (a < x.1)) && Memory.wf t

/-- The byte listed at an offset. -/
def Memory.read : Memory → Nat → Option Byte
  | [], _ => none
  | (b, w) :: t, a => if a = b then some w else Memory.read t a

/-- Lists a byte at an offset, in the place that keeps the offsets rising. -/
def Memory.write (a : Nat) (v : Byte) : Memory → Memory
  | [] => [(a, v)]
  | (b, w) :: t =>
    if a < b then (a, v) :: (b, w) :: t
    else if a = b then (a, v) :: t
    else (b, w) :: Memory.write a v t

/-- `MemWrite(addr, 1, [v])` (R12, R41), defined only inside the buffer. -/
def bufWrite (c : Config) (a : Nat) (v : Byte) (m : Memory) : Except Fault Memory :=
  if a < c.bufCap then .ok (m.write a v) else .error .bufferOverrun

/-- `MemRead(addr, 1)` (R12, R42), defined only inside the buffer; a byte nothing has written has no value (R32). -/
def bufRead (c : Config) (a : Nat) (m : Memory) : Except Fault Byte :=
  if a < c.bufCap then
    match m.read a with
    | some v => .ok v
    | none => .error .unwrittenByte
  else .error .bufferOverrun

/-- `MemRead(addr, n)` (R12): `n` bytes, offset `addr` first. -/
def bufReadN (c : Config) (m : Memory) : Nat → Nat → Except Fault Bytes
  | _, 0 => .ok []
  | a, n + 1 =>
    match bufRead c a m with
    | .error f => .error f
    | .ok v =>
      match bufReadN c m (a + 1) n with
      | .error f => .error f
      | .ok vs => .ok (v :: vs)

/-! ## How an operation ends -/

/-- `raise <Status>(info)` (R12, R250), this hardware's exception: it "saves nothing, switches no mode and transfers control
nowhere", so the status is the result and the state is what was written before it. There is no return from it (R252). -/
def raise (st : Status) (k : Codec) : Result × Codec := (⟨st, .none⟩, k)

/-- `return (OK, out)` (R12). -/
def returnOk (out : Output) (k : Codec) : Result × Codec := (⟨.ok, out⟩, k)

/-- Ends an operation of the machine: the codec's new state, and the results handed to the caller. -/
def State.deliver (s : State) (k : Codec) (rs : List Result) : State := { s with codec := k, results := rs }

/-- The outcome of an operation that returns one result. -/
def finish (s : State) (x : Result × Codec) : Host.Outcome State Fault Refusal := .next (s.deliver x.2 [x.1])

/-- The outcome of an operation that returns a list of results, or stops on an access of the buffer. -/
def finishAll (s : State) : Except Fault (List Result × Codec) → Host.Outcome State Fault Refusal
  | .ok (rs, k) => .next (s.deliver k rs)
  | .error f => .fault f

/-! ## The output side -/

/-- `ENCODE(cmd)` (R100): it reads no state and writes none. -/
def encodeOp (c : Config) (cmd : CommandRequest) (k : Codec) : Result × Codec :=
  match encodeRequest c cmd with
  | none => raise (.invalidArgument cmd.name) k
  | some f => returnOk (.frame f) k

/-- `emit(f)` (R12, R46): the frame is handed to the output sink whole. -/
def emit (f : Bytes) (k : Codec) : Codec := { k with txLog := k.txLog ++ [f] }

/-- `TRANSMIT(cmd)` (R101): it never reads `busy`. -/
def transmitOp (c : Config) (cmd : CommandRequest) (k : Codec) : Result × Codec :=
  match encodeRequest c cmd with
  | none => raise (.invalidArgument cmd.name) k
  | some f => returnOk .none { emit f k with busy := busyAfterTransmit k.busy }

/-! ## The input side -/

/-- A whole frame has been stored (R143, R144): it is classified, dispatched if its class is this protocol's, and the
parser returns to `AwaitingFirstByte`. -/
def completeFrame (c : Config) (k : Codec) : Except Fault (Result × Codec) :=
  match bufRead c 0 k.rxBuf, bufRead c 2 k.rxBuf, bufRead c 3 k.rxBuf, bufReadN c k.rxBuf hdrLen k.rxLen.toNat with
  | .ok mt, .ok cls, .ok code, .ok p =>
    .ok (if cls = c.classId then dispatch c mt code p else ⟨.ok, .none⟩,
      { k with busy := busyAfterFrame mt k.busy, rxOff := 0 })
  | .error f, _, _, _ => .error f
  | _, .error f, _, _ => .error f
  | _, _, .error f, _ => .error f
  | _, _, _, .error f => .error f

/-- "The frame is complete when the current offset equals `payload_length + 4`", once the header is there (R140, R143). -/
def Codec.isComplete (k : Codec) : Bool := decide (hdrLen ≤ k.rxOff) && k.rxOff == k.rxLen.toNat + hdrLen

/-- `rx_off` moves past the byte just stored at it (R142). -/
def Codec.pastByte (k : Codec) : Codec := { k with rxOff := k.rxOff + 1 }

/-- A byte has been stored at `rx_off`, which moves past it; the frame may be complete (R140, R142, R143). -/
def advance (c : Config) (k : Codec) : Except Fault (Result × Codec) :=
  if k.pastByte.isComplete then completeFrame c k.pastByte else .ok (returnOk .none k.pastByte)

/-- `FEED` of a first byte (R141): its low 7 bits must be zero, or nothing is written. -/
def feedFirst (c : Config) (b : Byte) (k : Codec) : Except Fault (Result × Codec) :=
  if b.extractLsb' 0 7 ≠ 0 then .ok (raise (.errFraming b) k)
  else match bufWrite c 0 b k.rxBuf with
    | .error f => .error f
    | .ok m => .ok (returnOk .none { k with rxBuf := m, rxOff := 1 })

/-- `FEED` of a later byte (R142, R148): it is stored; the second is the payload length, which must be legal. -/
def feedLater (c : Config) (b : Byte) (k : Codec) : Except Fault (Result × Codec) :=
  match bufWrite c k.rxOff b k.rxBuf with
  | .error f => .error f
  | .ok m =>
    if k.rxOff = 1 then
      if c.maxPayload < b.toNat then .ok (raise (.errLength b) { k with rxBuf := m, rxLen := b, rxOff := 0 })
      else advance c { k with rxBuf := m, rxLen := b }
    else advance c { k with rxBuf := m }

/-- `FEED(b)` (R140). -/
def feedByte (c : Config) (b : Byte) (k : Codec) : Except Fault (Result × Codec) :=
  if k.rxOff = 0 then feedFirst c b k else feedLater c b k

/-- `FEED_CHUNK(s)` (R146): `FEED` of each byte in order, with every result; an error does not stop the chunk. -/
def feedBytes (c : Config) : Bytes → Codec → Except Fault (List Result × Codec)
  | [], k => .ok ([], k)
  | b :: bs, k =>
    match feedByte c b k with
    | .error f => .error f
    | .ok (r, k') =>
      match feedBytes c bs k' with
      | .error f => .error f
      | .ok (rs, k'') => .ok (r :: rs, k'')

/-- `RESYNC` (R147): abandons a partial frame, and nothing else. -/
def resyncOp (k : Codec) : Result × Codec := returnOk .none { k with rxOff := 0 }

/-- `RESET` (R270): a new instance (R32). -/
def resetOp (_ : Codec) : Result × Codec := returnOk .none Codec.reset

/-! ## The rows with a frame -/

/-- A command row: the request is transmitted (log entry 1). -/
def transmitRow (cmd : CommandRequest) (s : State) : Host.Outcome State Fault Refusal :=
  finish s (transmitOp cfg cmd s.codec)

/-- A response or event row: the bytes of the frame are fed in order (log entry 1). -/
def receiveRow (mt code : Byte) (p : Bytes) (s : State) : Host.Outcome State Fault Refusal :=
  match inboundFrame cfg mt code p with
  | some f => finishAll s (feedBytes cfg f s.codec)
  | none => .refused .notAFrame

/-- The response row of a command. -/
def receiveResponse (m : CmdName) (p : Bytes) (s : State) : Host.Outcome State Fault Refusal :=
  receiveRow mtCommand (cfg.cmdCode m) p s

/-- The row of an event. -/
def receiveEvent (m : EvtName) (p : Bytes) (s : State) : Host.Outcome State Fault Refusal :=
  receiveRow mtEvent (cfg.evtCode m) p s

end Sys2Proof.Machine
end

