-- ==== Sys2Proof/Machine/Commands.lean ====
section
/-! DEFINITION. The meanings of the thirty command rows (spec/40_encoder_commands.md R104 to R133): each transmits its
request (R101). A request whose byte-sequence argument has an illegal length ends with `INVALID_ARGUMENT` and changes
nothing (R102, R244). -/

namespace Sys2Proof.Machine

open Sys2Proof

/-- `RESET` (R104): the request is encoded and transmitted (R101). -/
def execReset (f : Bool) (s : State) : Host.Outcome State Fault Refusal :=
  transmitRow (.reset f) s

/-- `PING` (R105): the request is encoded and transmitted (R101). -/
def execPing (s : State) : Host.Outcome State Fault Refusal :=
  transmitRow .ping s

/-- `READ_BT_ADDRESS` (R106): the request is encoded and transmitted (R101). -/
def execReadBtAddress (s : State) : Host.Outcome State Fault Refusal :=
  transmitRow .readBtAddress s

/-- `READ_VERSION` (R107): the request is encoded and transmitted (R101). -/
def execReadVersion (s : State) : Host.Outcome State Fault Refusal :=
  transmitRow .readVersion s

/-- `WRITE_VERSION` (R108): the request is encoded and transmitted (R101). -/
def execWriteVersion (v : Byte) (s : State) : Host.Outcome State Fault Refusal :=
  transmitRow (.writeVersion v) s

/-- `READ_LOUDNESS` (R109): the request is encoded and transmitted (R101). -/
def execReadLoudness (s : State) : Host.Outcome State Fault Refusal :=
  transmitRow .readLoudness s

/-- `WRITE_LOUDNESS` (R110): the request is encoded and transmitted (R101). -/
def execWriteLoudness (v : Byte) (s : State) : Host.Outcome State Fault Refusal :=
  transmitRow (.writeLoudness v) s

/-- `READ_MODE` (R111): the request is encoded and transmitted (R101). -/
def execReadMode (s : State) : Host.Outcome State Fault Refusal :=
  transmitRow .readMode s

/-- `WRITE_MODE` (R112): the request is encoded and transmitted (R101). -/
def execWriteMode (v : Byte) (s : State) : Host.Outcome State Fault Refusal :=
  transmitRow (.writeMode v) s

/-- `READ_UUID` (R113): the request is encoded and transmitted (R101). -/
def execReadUuid (s : State) : Host.Outcome State Fault Refusal :=
  transmitRow .readUuid s

/-- `WRITE_UUID` (R114): the request is encoded and transmitted (R101). -/
def execWriteUuid (u : Bytes) (s : State) : Host.Outcome State Fault Refusal :=
  transmitRow (.writeUuid u) s

/-- `READ_MAJOR` (R115): the request is encoded and transmitted (R101). -/
def execReadMajor (s : State) : Host.Outcome State Fault Refusal :=
  transmitRow .readMajor s

/-- `WRITE_MAJOR` (R116): the request is encoded and transmitted (R101). -/
def execWriteMajor (v : Half) (s : State) : Host.Outcome State Fault Refusal :=
  transmitRow (.writeMajor v) s

/-- `READ_MINOR` (R117): the request is encoded and transmitted (R101). -/
def execReadMinor (s : State) : Host.Outcome State Fault Refusal :=
  transmitRow .readMinor s

/-- `WRITE_MINOR` (R118): the request is encoded and transmitted (R101). -/
def execWriteMinor (v : Half) (s : State) : Host.Outcome State Fault Refusal :=
  transmitRow (.writeMinor v) s

/-- `READ_POWER` (R119): the request is encoded and transmitted (R101). -/
def execReadPower (s : State) : Host.Outcome State Fault Refusal :=
  transmitRow .readPower s

/-- `WRITE_POWER` (R120): the request is encoded and transmitted (R101). -/
def execWritePower (v : BitVec 8) (s : State) : Host.Outcome State Fault Refusal :=
  transmitRow (.writePower v) s

/-- `READ_ADV_ENABLED` (R121): the request is encoded and transmitted (R101). -/
def execReadAdvEnabled (s : State) : Host.Outcome State Fault Refusal :=
  transmitRow .readAdvEnabled s

/-- `WRITE_ADV_ENABLED` (R122): the request is encoded and transmitted (R101). -/
def execWriteAdvEnabled (f : Bool) (s : State) : Host.Outcome State Fault Refusal :=
  transmitRow (.writeAdvEnabled f) s

/-- `READ_EVENTS_ENABLED` (R123): the request is encoded and transmitted (R101). -/
def execReadEventsEnabled (s : State) : Host.Outcome State Fault Refusal :=
  transmitRow .readEventsEnabled s

/-- `WRITE_EVENTS_ENABLED` (R124): the request is encoded and transmitted (R101). -/
def execWriteEventsEnabled (f : Bool) (s : State) : Host.Outcome State Fault Refusal :=
  transmitRow (.writeEventsEnabled f) s

/-- `READ_TARGET_SPEED` (R125): the request is encoded and transmitted (R101). -/
def execReadTargetSpeed (s : State) : Host.Outcome State Fault Refusal :=
  transmitRow .readTargetSpeed s

/-- `READ_MODEL_NUMBER` (R126): the request is encoded and transmitted (R101). -/
def execReadModelNumber (s : State) : Host.Outcome State Fault Refusal :=
  transmitRow .readModelNumber s

/-- `READ_FIRMWARE_VERSION` (R127): the request is encoded and transmitted (R101). -/
def execReadFirmwareVersion (s : State) : Host.Outcome State Fault Refusal :=
  transmitRow .readFirmwareVersion s

/-- `READ_CRASH_REPORT` (R128): the request is encoded and transmitted (R101). -/
def execReadCrashReport (s : State) : Host.Outcome State Fault Refusal :=
  transmitRow .readCrashReport s

/-- `CANCEL_DATA_BLOCKS` (R129): the request is encoded and transmitted (R101). -/
def execCancelDataBlocks (s : State) : Host.Outcome State Fault Refusal :=
  transmitRow .cancelDataBlocks s

/-- `SEND_DATA_BLOCKS` (R130): the request is encoded and transmitted (R101). -/
def execSendDataBlocks (t e r : Byte) (d : Bytes) (s : State) : Host.Outcome State Fault Refusal :=
  transmitRow (.sendDataBlocks t e r d) s

/-- `RESPOND_DATA_REQUEST` (R131): the request is encoded and transmitted (R101). -/
def execRespondDataRequest (d : Bytes) (s : State) : Host.Outcome State Fault Refusal :=
  transmitRow (.respondDataRequest d) s

/-- `BEGIN_SETTINGS_UPDATE` (R132): the request is encoded and transmitted (R101). -/
def execBeginSettingsUpdate (s : State) : Host.Outcome State Fault Refusal :=
  transmitRow .beginSettingsUpdate s

/-- `END_SETTINGS_UPDATE` (R133): the request is encoded and transmitted (R101). -/
def execEndSettingsUpdate (s : State) : Host.Outcome State Fault Refusal :=
  transmitRow .endSettingsUpdate s

end Sys2Proof.Machine
end

