-- ==== Sys2Proof/Machine/Events.lean ====
section
/-! DEFINITION. The meanings of the ten event rows (spec/43_dispatch_events.md R220 to R229): the codec consumes the whole
frame, and its last byte yields the record. `busy` is not touched. -/

namespace Sys2Proof.Machine

open Sys2Proof

/-- `EVT_CONNECT` (R220, `DEC-RAW`). -/
def execEvtConnect (p : Bytes) (s : State) : Host.Outcome State Fault Refusal :=
  receiveEvent .connect p s

/-- `EVT_DISCONNECT` (R221, `DEC-RAW`). -/
def execEvtDisconnect (p : Bytes) (s : State) : Host.Outcome State Fault Refusal :=
  receiveEvent .disconnect p s

/-- `EVT_DEBUG` (R222, `DEC-RAW`). -/
def execEvtDebug (p : Bytes) (s : State) : Host.Outcome State Fault Refusal :=
  receiveEvent .debug p s

/-- `EVT_AUTH_SUCCEEDED` (R223, `DEC-RAW`). -/
def execEvtAuthSucceeded (p : Bytes) (s : State) : Host.Outcome State Fault Refusal :=
  receiveEvent .authSucceeded p s

/-- `EVT_AUTH_FAILED` (R224, `DEC-RAW`). -/
def execEvtAuthFailed (p : Bytes) (s : State) : Host.Outcome State Fault Refusal :=
  receiveEvent .authFailed p s

/-- `EVT_ERROR` (R225, `DEC-U8`). -/
def execEvtError (p : Bytes) (s : State) : Host.Outcome State Fault Refusal :=
  receiveEvent .error p s

/-- `EVT_SETTINGS_SAVED` (R226, `DEC-RAW`). -/
def execEvtSettingsSaved (p : Bytes) (s : State) : Host.Outcome State Fault Refusal :=
  receiveEvent .settingsSaved p s

/-- `EVT_DATA_REQUEST` (R227, `DEC-RAW`). -/
def execEvtDataRequest (p : Bytes) (s : State) : Host.Outcome State Fault Refusal :=
  receiveEvent .dataRequest p s

/-- `EVT_DATA_BLOCKS_SENT` (R228, `DEC-RAW`). -/
def execEvtDataBlocksSent (p : Bytes) (s : State) : Host.Outcome State Fault Refusal :=
  receiveEvent .dataBlocksSent p s

/-- `EVT_DATA_INDICATED` (R229, `DEC-RAW`). -/
def execEvtDataIndicated (p : Bytes) (s : State) : Host.Outcome State Fault Refusal :=
  receiveEvent .dataIndicated p s

end Sys2Proof.Machine
end

