-- ==== Sys2Proof/Machine/Operations.lean ====
section
/-! DEFINITION. The meanings of the six operations (spec/00_scope.md R14). -/

namespace Sys2Proof.Machine

open Sys2Proof

/-- `ENCODE` (R100): the frame is the result, and no state changes. -/
def execEncode (cmd : CommandRequest) (s : State) : Host.Outcome State Fault Refusal :=
  finish s (encodeOp cfg cmd s.codec)

/-- `TRANSMIT` (R101). -/
def execTransmit (cmd : CommandRequest) (s : State) : Host.Outcome State Fault Refusal :=
  finish s (transmitOp cfg cmd s.codec)

/-- `FEED` (R140). -/
def execFeed (b : Byte) (s : State) : Host.Outcome State Fault Refusal :=
  finishAll s ((feedByte cfg b s.codec).map fun x => ([x.1], x.2))

/-- `FEED_CHUNK` (R146): the results are one for each byte. -/
def execFeedChunk (bs : Bytes) (s : State) : Host.Outcome State Fault Refusal :=
  finishAll s (feedBytes cfg bs s.codec)

/-- `RESYNC` (R147). -/
def execResync (s : State) : Host.Outcome State Fault Refusal :=
  finish s (resyncOp s.codec)

/-- `RESET`, the codec's own (R270). -/
def execOpReset (s : State) : Host.Outcome State Fault Refusal :=
  finish s (resetOp s.codec)

end Sys2Proof.Machine
end

