-- ==== Sys2Proof/Machine/Responses.lean ====
section
/-! DEFINITION. The meanings of the thirty response rows (spec/42_dispatch_responses.md R180 to R209): the codec consumes
the whole frame, and its last byte yields the record, or `ERR_MALFORMED` where the payload is too short (R171). -/

namespace Sys2Proof.Machine

open Sys2Proof

/-- The response to `RESET` (R180, `DEC-CODE`). -/
def execRespReset (p : Bytes) (s : State) : Host.Outcome State Fault Refusal :=
  receiveResponse .reset p s

/-- The response to `PING` (R181, `DEC-RAW5`). -/
def execRespPing (p : Bytes) (s : State) : Host.Outcome State Fault Refusal :=
  receiveResponse .ping p s

/-- The response to `READ_BT_ADDRESS` (R182, `DEC-ADDR6`). -/
def execRespReadBtAddress (p : Bytes) (s : State) : Host.Outcome State Fault Refusal :=
  receiveResponse .readBtAddress p s

/-- The response to `READ_VERSION` (R183, `DEC-RAW`). -/
def execRespReadVersion (p : Bytes) (s : State) : Host.Outcome State Fault Refusal :=
  receiveResponse .readVersion p s

/-- The response to `WRITE_VERSION` (R184, `DEC-CODE`). -/
def execRespWriteVersion (p : Bytes) (s : State) : Host.Outcome State Fault Refusal :=
  receiveResponse .writeVersion p s

/-- The response to `READ_LOUDNESS` (R185, `DEC-U8`). -/
def execRespReadLoudness (p : Bytes) (s : State) : Host.Outcome State Fault Refusal :=
  receiveResponse .readLoudness p s

/-- The response to `WRITE_LOUDNESS` (R186, `DEC-CODE`). -/
def execRespWriteLoudness (p : Bytes) (s : State) : Host.Outcome State Fault Refusal :=
  receiveResponse .writeLoudness p s

/-- The response to `READ_MODE` (R187, `DEC-U8`). -/
def execRespReadMode (p : Bytes) (s : State) : Host.Outcome State Fault Refusal :=
  receiveResponse .readMode p s

/-- The response to `WRITE_MODE` (R188, `DEC-CODE`). -/
def execRespWriteMode (p : Bytes) (s : State) : Host.Outcome State Fault Refusal :=
  receiveResponse .writeMode p s

/-- The response to `READ_UUID` (R189, `DEC-UUID16`). -/
def execRespReadUuid (p : Bytes) (s : State) : Host.Outcome State Fault Refusal :=
  receiveResponse .readUuid p s

/-- The response to `WRITE_UUID` (R190, `DEC-CODE`). -/
def execRespWriteUuid (p : Bytes) (s : State) : Host.Outcome State Fault Refusal :=
  receiveResponse .writeUuid p s

/-- The response to `READ_MAJOR` (R191, `DEC-U16BE`). -/
def execRespReadMajor (p : Bytes) (s : State) : Host.Outcome State Fault Refusal :=
  receiveResponse .readMajor p s

/-- The response to `WRITE_MAJOR` (R192, `DEC-CODE`). -/
def execRespWriteMajor (p : Bytes) (s : State) : Host.Outcome State Fault Refusal :=
  receiveResponse .writeMajor p s

/-- The response to `READ_MINOR` (R193, `DEC-U16BE`). -/
def execRespReadMinor (p : Bytes) (s : State) : Host.Outcome State Fault Refusal :=
  receiveResponse .readMinor p s

/-- The response to `WRITE_MINOR` (R194, `DEC-CODE`). -/
def execRespWriteMinor (p : Bytes) (s : State) : Host.Outcome State Fault Refusal :=
  receiveResponse .writeMinor p s

/-- The response to `READ_POWER` (R195, `DEC-I8`). -/
def execRespReadPower (p : Bytes) (s : State) : Host.Outcome State Fault Refusal :=
  receiveResponse .readPower p s

/-- The response to `WRITE_POWER` (R196, `DEC-CODE`). -/
def execRespWritePower (p : Bytes) (s : State) : Host.Outcome State Fault Refusal :=
  receiveResponse .writePower p s

/-- The response to `READ_ADV_ENABLED` (R197, `DEC-BOOL`). -/
def execRespReadAdvEnabled (p : Bytes) (s : State) : Host.Outcome State Fault Refusal :=
  receiveResponse .readAdvEnabled p s

/-- The response to `WRITE_ADV_ENABLED` (R198, `DEC-CODE`). -/
def execRespWriteAdvEnabled (p : Bytes) (s : State) : Host.Outcome State Fault Refusal :=
  receiveResponse .writeAdvEnabled p s

/-- The response to `READ_EVENTS_ENABLED` (R199, `DEC-BOOL`). -/
def execRespReadEventsEnabled (p : Bytes) (s : State) : Host.Outcome State Fault Refusal :=
  receiveResponse .readEventsEnabled p s

/-- The response to `WRITE_EVENTS_ENABLED` (R200, `DEC-CODE`). -/
def execRespWriteEventsEnabled (p : Bytes) (s : State) : Host.Outcome State Fault Refusal :=
  receiveResponse .writeEventsEnabled p s

/-- The response to `READ_TARGET_SPEED` (R201, `DEC-RAW`). -/
def execRespReadTargetSpeed (p : Bytes) (s : State) : Host.Outcome State Fault Refusal :=
  receiveResponse .readTargetSpeed p s

/-- The response to `READ_MODEL_NUMBER` (R202, `DEC-MODEL`). -/
def execRespReadModelNumber (p : Bytes) (s : State) : Host.Outcome State Fault Refusal :=
  receiveResponse .readModelNumber p s

/-- The response to `READ_FIRMWARE_VERSION` (R203, `DEC-FWVER`). -/
def execRespReadFirmwareVersion (p : Bytes) (s : State) : Host.Outcome State Fault Refusal :=
  receiveResponse .readFirmwareVersion p s

/-- The response to `READ_CRASH_REPORT` (R204, `DEC-RAW`). -/
def execRespReadCrashReport (p : Bytes) (s : State) : Host.Outcome State Fault Refusal :=
  receiveResponse .readCrashReport p s

/-- The response to `CANCEL_DATA_BLOCKS` (R205, `DEC-CODE`). -/
def execRespCancelDataBlocks (p : Bytes) (s : State) : Host.Outcome State Fault Refusal :=
  receiveResponse .cancelDataBlocks p s

/-- The response to `SEND_DATA_BLOCKS` (R206, `DEC-CODE`). -/
def execRespSendDataBlocks (p : Bytes) (s : State) : Host.Outcome State Fault Refusal :=
  receiveResponse .sendDataBlocks p s

/-- The response to `RESPOND_DATA_REQUEST` (R207, `DEC-CODE`). -/
def execRespRespondDataRequest (p : Bytes) (s : State) : Host.Outcome State Fault Refusal :=
  receiveResponse .respondDataRequest p s

/-- The response to `BEGIN_SETTINGS_UPDATE` (R208, `DEC-CODE`). -/
def execRespBeginSettingsUpdate (p : Bytes) (s : State) : Host.Outcome State Fault Refusal :=
  receiveResponse .beginSettingsUpdate p s

/-- The response to `END_SETTINGS_UPDATE` (R209, `DEC-CODE`). -/
def execRespEndSettingsUpdate (p : Bytes) (s : State) : Host.Outcome State Fault Refusal :=
  receiveResponse .endSettingsUpdate p s

end Sys2Proof.Machine
end

