-- ==== Sys2Proof/Machine/Dispatch.lean ====
section
/-! DEFINITION. Which meaning each instruction has: one arm for each row of spec/opcode_table.json. -/

namespace Sys2Proof.Machine

open Sys2Proof

def exec (i : Instr) (s : State) : Host.Outcome State Fault Refusal :=
  match i with
  -- the command rows
  | .reset f => Sys2Proof.Machine.execReset f s
  | .ping => Sys2Proof.Machine.execPing s
  | .readBtAddress => Sys2Proof.Machine.execReadBtAddress s
  | .readVersion => Sys2Proof.Machine.execReadVersion s
  | .writeVersion v => Sys2Proof.Machine.execWriteVersion v s
  | .readLoudness => Sys2Proof.Machine.execReadLoudness s
  | .writeLoudness v => Sys2Proof.Machine.execWriteLoudness v s
  | .readMode => Sys2Proof.Machine.execReadMode s
  | .writeMode v => Sys2Proof.Machine.execWriteMode v s
  | .readUuid => Sys2Proof.Machine.execReadUuid s
  | .writeUuid u => Sys2Proof.Machine.execWriteUuid u s
  | .readMajor => Sys2Proof.Machine.execReadMajor s
  | .writeMajor v => Sys2Proof.Machine.execWriteMajor v s
  | .readMinor => Sys2Proof.Machine.execReadMinor s
  | .writeMinor v => Sys2Proof.Machine.execWriteMinor v s
  | .readPower => Sys2Proof.Machine.execReadPower s
  | .writePower v => Sys2Proof.Machine.execWritePower v s
  | .readAdvEnabled => Sys2Proof.Machine.execReadAdvEnabled s
  | .writeAdvEnabled f => Sys2Proof.Machine.execWriteAdvEnabled f s
  | .readEventsEnabled => Sys2Proof.Machine.execReadEventsEnabled s
  | .writeEventsEnabled f => Sys2Proof.Machine.execWriteEventsEnabled f s
  | .readTargetSpeed => Sys2Proof.Machine.execReadTargetSpeed s
  | .readModelNumber => Sys2Proof.Machine.execReadModelNumber s
  | .readFirmwareVersion => Sys2Proof.Machine.execReadFirmwareVersion s
  | .readCrashReport => Sys2Proof.Machine.execReadCrashReport s
  | .cancelDataBlocks => Sys2Proof.Machine.execCancelDataBlocks s
  | .sendDataBlocks t e r d => Sys2Proof.Machine.execSendDataBlocks t e r d s
  | .respondDataRequest d => Sys2Proof.Machine.execRespondDataRequest d s
  | .beginSettingsUpdate => Sys2Proof.Machine.execBeginSettingsUpdate s
  | .endSettingsUpdate => Sys2Proof.Machine.execEndSettingsUpdate s
  -- the response rows
  | .respReset p => Sys2Proof.Machine.execRespReset p s
  | .respPing p => Sys2Proof.Machine.execRespPing p s
  | .respReadBtAddress p => Sys2Proof.Machine.execRespReadBtAddress p s
  | .respReadVersion p => Sys2Proof.Machine.execRespReadVersion p s
  | .respWriteVersion p => Sys2Proof.Machine.execRespWriteVersion p s
  | .respReadLoudness p => Sys2Proof.Machine.execRespReadLoudness p s
  | .respWriteLoudness p => Sys2Proof.Machine.execRespWriteLoudness p s
  | .respReadMode p => Sys2Proof.Machine.execRespReadMode p s
  | .respWriteMode p => Sys2Proof.Machine.execRespWriteMode p s
  | .respReadUuid p => Sys2Proof.Machine.execRespReadUuid p s
  | .respWriteUuid p => Sys2Proof.Machine.execRespWriteUuid p s
  | .respReadMajor p => Sys2Proof.Machine.execRespReadMajor p s
  | .respWriteMajor p => Sys2Proof.Machine.execRespWriteMajor p s
  | .respReadMinor p => Sys2Proof.Machine.execRespReadMinor p s
  | .respWriteMinor p => Sys2Proof.Machine.execRespWriteMinor p s
  | .respReadPower p => Sys2Proof.Machine.execRespReadPower p s
  | .respWritePower p => Sys2Proof.Machine.execRespWritePower p s
  | .respReadAdvEnabled p => Sys2Proof.Machine.execRespReadAdvEnabled p s
  | .respWriteAdvEnabled p => Sys2Proof.Machine.execRespWriteAdvEnabled p s
  | .respReadEventsEnabled p => Sys2Proof.Machine.execRespReadEventsEnabled p s
  | .respWriteEventsEnabled p => Sys2Proof.Machine.execRespWriteEventsEnabled p s
  | .respReadTargetSpeed p => Sys2Proof.Machine.execRespReadTargetSpeed p s
  | .respReadModelNumber p => Sys2Proof.Machine.execRespReadModelNumber p s
  | .respReadFirmwareVersion p => Sys2Proof.Machine.execRespReadFirmwareVersion p s
  | .respReadCrashReport p => Sys2Proof.Machine.execRespReadCrashReport p s
  | .respCancelDataBlocks p => Sys2Proof.Machine.execRespCancelDataBlocks p s
  | .respSendDataBlocks p => Sys2Proof.Machine.execRespSendDataBlocks p s
  | .respRespondDataRequest p => Sys2Proof.Machine.execRespRespondDataRequest p s
  | .respBeginSettingsUpdate p => Sys2Proof.Machine.execRespBeginSettingsUpdate p s
  | .respEndSettingsUpdate p => Sys2Proof.Machine.execRespEndSettingsUpdate p s
  -- the event rows
  | .evtConnect p => Sys2Proof.Machine.execEvtConnect p s
  | .evtDisconnect p => Sys2Proof.Machine.execEvtDisconnect p s
  | .evtDebug p => Sys2Proof.Machine.execEvtDebug p s
  | .evtAuthSucceeded p => Sys2Proof.Machine.execEvtAuthSucceeded p s
  | .evtAuthFailed p => Sys2Proof.Machine.execEvtAuthFailed p s
  | .evtError p => Sys2Proof.Machine.execEvtError p s
  | .evtSettingsSaved p => Sys2Proof.Machine.execEvtSettingsSaved p s
  | .evtDataRequest p => Sys2Proof.Machine.execEvtDataRequest p s
  | .evtDataBlocksSent p => Sys2Proof.Machine.execEvtDataBlocksSent p s
  | .evtDataIndicated p => Sys2Proof.Machine.execEvtDataIndicated p s
  -- the operations
  | .encode cmd => Sys2Proof.Machine.execEncode cmd s
  | .transmit cmd => Sys2Proof.Machine.execTransmit cmd s
  | .feed b => Sys2Proof.Machine.execFeed b s
  | .feedChunk bs => Sys2Proof.Machine.execFeedChunk bs s
  | .resync => Sys2Proof.Machine.execResync s
  | .opReset => Sys2Proof.Machine.execOpReset s

end Sys2Proof.Machine
end

