-- ==== Sys2Proof/Machine/Fetch.lean ====
section
/-! DEFINITION. Fetching: the caller's next request, and the instruction it asks for (log entry 2). -/

namespace Sys2Proof.Machine

open Sys2Proof

/-- The instruction a request asks for. The bytes of a frame are decoded for their direction. Bytes from the device that
are no frame of a row still reach the parser byte by byte, so they ask for `FEED_CHUNK` of themselves (R75, R146); bytes to
the device that are no command frame ask for nothing the encoder can do (R76). -/
def Request.instr : Request → Except DecodeError Instr
  | .call i => .ok i
  | .wire .hostToDevice bs => decode .hostToDevice bs
  | .wire .deviceToHost bs =>
    match decode .deviceToHost bs with
    | .ok i => .ok i
    | .error _ => .ok (.feedChunk bs)

/-- Takes the caller's next request off the queue, if there is one. -/
def State.fetch (s : State) : Option (Request × State) :=
  match s.requests with
  | [] => none
  | r :: rest => some (r, { s with requests := rest })

end Sys2Proof.Machine
end

