-- ==== Sys2Proof/Machine/Step.lean ====
section
/-! DEFINITION. One step of the machine: the caller's next request is fetched and its instruction runs. With no request
the codec "simply holds its state" (spec/00_scope.md R15, spec/60_exceptions.md R259). -/

namespace Sys2Proof.Machine

open Sys2Proof

/-- One step. -/
def step (s : State) : Host.Outcome State Fault Refusal :=
  match s.fetch with
  | none => .next s
  | some (r, s') =>
    match r.instr with
    | .ok i => exec i s'
    | .error e => .refused (.notACommandFrame e)

/-- `s` with the instruction whose bits are `w` as the caller's next request, in the form `step` fetches it: the bytes of
its frame, for the direction they travel in (log entries 2 and 4). -/
def State.withFetchWord (s : State) (nbits w : Nat) : State :=
  { s with requests := .wire (wordDirection nbits w) (wordBytes nbits w) :: s.requests }

end Sys2Proof.Machine
end

