-- ==== Sys2Proof/Safety.lean ====
section
/-! DEFINITION. The terms of claims: the invariants that hold between operations (spec/10_state.md R24), what the caller can
tell apart (R31), and what consuming a whole frame does (spec/41_parser.md R143, R150). -/

namespace Sys2Proof.Machine

open Sys2Proof

/-- The invariants of R24, with the buffer in its canonical form and inside its capacity (R43). -/
structure Codec.Inv (c : Config) (k : Codec) : Prop where
  /-- (I1). -/
  rxOff_lt : k.rxOff < c.maxFrame
  /-- (I2). -/
  firstByte : 1 ≤ k.rxOff → k.rxBuf.read 0 = some mtCommand ∨ k.rxBuf.read 0 = some mtEvent
  /-- (I3): `rx_len` is a copy of the stored length byte. -/
  rxLen_stored : 2 ≤ k.rxOff → k.rxBuf.read 1 = some k.rxLen
  /-- (I3): the stored length byte is legal. -/
  rxLen_le : 2 ≤ k.rxOff → k.rxLen.toNat ≤ c.maxPayload
  /-- (I4). -/
  incomplete : 2 ≤ k.rxOff → k.rxOff < k.rxLen.toNat + hdrLen
  /-- What (I5) says of one state: the bytes of the current frame are stored. -/
  stored : ∀ a, a < k.rxOff → ∃ v, k.rxBuf.read a = some v
  /-- The buffer is in its canonical form. -/
  canonical : k.rxBuf.wf = true
  /-- Every stored byte is inside the buffer. -/
  inside : ∀ x ∈ k.rxBuf, x.1 < c.bufCap

/-- The invariant of the machine: its codec's. -/
def State.Inv (s : State) : Prop := s.codec.Inv cfg

/-- Two codecs that differ in what no rule reads (R31): stale bytes at or past `rx_off`, and `rx_len` while `rx_off < 2`. -/
structure Codec.SameVisible (k₁ k₂ : Codec) : Prop where
  rxOff_eq : k₁.rxOff = k₂.rxOff
  busy_eq : k₁.busy = k₂.busy
  txLog_eq : k₁.txLog = k₂.txLog
  rxLen_eq : 2 ≤ k₁.rxOff → k₁.rxLen = k₂.rxLen
  bytes_eq : ∀ a, a < k₁.rxOff → k₁.rxBuf.read a = k₂.rxBuf.read a

/-- `t` is `s` after the bytes `f` of one whole frame, fed from `AwaitingFirstByte`, have been consumed with `last` as the
result of the last byte: every earlier byte answers `(OK, none)`; the parser awaits a first byte; `rx_len` is the frame's
length byte; `busy` is cleared by a Command frame and otherwise kept; the buffer reads `f` at its offsets and is otherwise
unchanged; nothing is transmitted and no request is taken (R41, R143, R150). -/
structure ConsumedFrame (f : Bytes) (last : Result) (s t : State) : Prop where
  results_eq : t.results = List.replicate (f.length - 1) ⟨.ok, .none⟩ ++ [last]
  rxOff_eq : t.codec.rxOff = 0
  rxLen_eq : f[1]? = some t.codec.rxLen
  busy_eq : t.codec.busy = (if f[0]? = some mtCommand then false else s.codec.busy)
  rxBuf_read : ∀ a, t.codec.rxBuf.read a = if a < f.length then f[a]? else s.codec.rxBuf.read a
  txLog_eq : t.codec.txLog = s.codec.txLog
  requests_eq : t.requests = s.requests

/-- An instruction completes from `s` by consuming the whole frame `f`, its last byte answering `last`. -/
def Consumes (i : Instr) (f : Bytes) (last : Result) (s : State) : Prop :=
  ∃ t, exec i s = .next t ∧ ConsumedFrame f last s t

/-- The frame of a response to `m` (R64, R180 to R209). -/
def responseFrame (m : CmdName) (p : Bytes) : Bytes :=
  0x00 :: BitVec.ofNat 8 p.length :: cfg.classId :: cfg.cmdCode m :: p

/-- The frame of an event (R220 to R229). -/
def eventFrame (m : EvtName) (p : Bytes) : Bytes :=
  0x80 :: BitVec.ofNat 8 p.length :: cfg.classId :: cfg.evtCode m :: p

/-- `s` after the frame of a command with this payload has been handed to the output sink (R100, R101). -/
def afterTransmit (m : CmdName) (p : Bytes) (s : State) : State :=
  { s with
    codec := { s.codec with
      txLog := s.codec.txLog ++ [0x00 :: BitVec.ofNat 8 p.length :: cfg.classId :: cfg.cmdCode m :: p]
      busy := true }
    results := [⟨.ok, .none⟩] }

/-- `t` is `s` after the byte `b` has been stored at `rx_off` without completing a frame: the offset is one more, `rx_len`
is `b` if it was the length byte, and nothing else changes (R41, R142). -/
structure StoredByte (b : Byte) (s t : State) : Prop where
  results_eq : t.results = [⟨.ok, .none⟩]
  rxOff_eq : t.codec.rxOff = s.codec.rxOff + 1
  rxLen_eq : t.codec.rxLen = if s.codec.rxOff = 1 then b else s.codec.rxLen
  busy_eq : t.codec.busy = s.codec.busy
  rxBuf_read : ∀ a, t.codec.rxBuf.read a = if a = s.codec.rxOff then some b else s.codec.rxBuf.read a
  txLog_eq : t.codec.txLog = s.codec.txLog
  requests_eq : t.requests = s.requests

end Sys2Proof.Machine
end

