-- ==== Sys2Proof/Certificates/Slice0/Obligations.lean ====
section
/-! DEFINITION. The statements about the model, for the provers. Each docstring names the rule of spec/ it formalises. -/

open Sys2Proof Sys2Proof.Machine

/-! ## Fetch, decode and encode -/

/-- A step runs the instruction the caller's next request asks for, with that request taken off the queue: a typed request
as it stands, bytes as they decode for their direction. Bytes from the device that are no frame of a row are fed as they
are; bytes to the device that are no command frame are refused by name; with no request the codec holds its state
(the queue and the refusal are the model's own: log entries 2 and 20). -/
def Obligations.StepRunsTheFetchedInstruction : Prop :=
  ∀ (s : State) (rest : List Request),
    (∀ i, step { s with requests := .call i :: rest } = exec i { s with requests := rest }) ∧
    (∀ d bs i, decode d bs = .ok i →
      step { s with requests := .wire d bs :: rest } = exec i { s with requests := rest }) ∧
    (∀ bs e, decode .deviceToHost bs = .error e →
      step { s with requests := .wire .deviceToHost bs :: rest } = exec (.feedChunk bs) { s with requests := rest }) ∧
    (∀ bs e, decode .hostToDevice bs = .error e →
      step { s with requests := .wire .hostToDevice bs :: rest } = .refused (.notACommandFrame e)) ∧
    step { s with requests := [] } = .next { s with requests := [] }

/-- A word of the opcode table (the header word of 30_encoding R66, section 1) that the decoder reads is run by the very next
step. How a word is read is the model's own, log entry 4, and so is the queue it is placed in, log entry 2. -/
def Obligations.TableWordRunsNext : Prop :=
  ∀ (s : State) (nbits w : Nat) (i : Instr),
    decodeTableWord nbits w = some i → step (s.withFetchWord nbits w) = exec i s

/-- The source's three frames, the request frame of `READ_MAJOR` and two header words decode to their rows (30_encoding R60,
R66; 95_test_vectors S-a, S-b, S-e, and E15 for the request frame, 40_encoder_commands R115). That the word 0x0000BC0B, which
the response row matches too, is read as the command is the model's own choice: log entry 4. -/
def Obligations.SourceFramesDecodeToTheirRows : Prop :=
  decode .hostToDevice [0x00, 0x02, 0xBC, 0x0C, 0x02, 0x01] = .ok (.writeMajor 0x0102) ∧
  decode .hostToDevice [0x00, 0x00, 0xBC, 0x0B] = .ok .readMajor ∧
  decode .deviceToHost [0x00, 0x06, 0xBC, 0x0B, 0x01, 0x02, 0xAA, 0xBB, 0xCC, 0xDD] =
    .ok (.respReadMajor [0x01, 0x02, 0xAA, 0xBB, 0xCC, 0xDD]) ∧
  decode .deviceToHost [0x80, 0x00, 0xBC, 0x01] = .ok (.evtConnect []) ∧
  decodeTableWord 32 0x0000BC0B = some .readMajor ∧
  decodeTableWord 32 0x8000BC01 = some (.evtConnect [])

/-- Under every legal configuration, decoding the frame of a row, in the direction it travels, gives the row back with
every operand (40_encoder_commands R103; 30_encoding R67). -/
def Obligations.DecodeOfEncodeIsTheInstruction : Prop :=
  ∀ (c : Config), c.Valid → ∀ (i : Instr) (d : Direction) (bs : Bytes),
    encodeWith c i = some bs → i.direction = some d → decodeWith c d bs = .ok i

/-- Under every configuration, bytes that decode are exactly the frame of the row they decode to: every wire frame has one
spelling (30_encoding R60, R67, R74). -/
def Obligations.EncodeOfDecodeIsTheFrame : Prop :=
  ∀ (c : Config) (d : Direction) (bs : Bytes) (i : Instr),
    decodeWith c d bs = .ok i → encodeWith c i = some bs ∧ i.direction = some d

/-- A row has a frame exactly when it is well formed, and an operation has none (30_encoding R60, R67, R76). -/
def Obligations.WellFormedRowsAreThoseWithAFrame : Prop :=
  ∀ (c : Config) (i : Instr),
    (∃ bs, encodeWith c i = some bs) ↔ i.wellFormed c = true ∧ i.direction ≠ none

/-- Two different requests never share a frame, under every legal configuration (40_encoder_commands R103). -/
def Obligations.EncodeIsInjectiveOnRequests : Prop :=
  ∀ (c : Config), c.Valid → ∀ (a b : CommandRequest) (f : Bytes),
    encodeRequest c a = some f → encodeRequest c b = some f → a = b

/-- The header of every encoded frame, under every legal configuration: message type, class, code, and a length byte that
counts the payload and is at most `MAX_PAYLOAD` (40_encoder_commands R100, R102, R103). -/
def Obligations.EncodedFramesHaveTheirHeader : Prop :=
  ∀ (c : Config), c.Valid → ∀ (cmd : CommandRequest) (f : Bytes), encodeRequest c cmd = some f →
    ∃ (len : Byte) (p : Bytes),
      f = 0x00 :: len :: c.classId :: c.cmdCode cmd.name :: p ∧
      len.toNat = p.length ∧ len.toNat = f.length - 4 ∧ len.toNat ≤ c.maxPayload

/-! ## The dispatch decoder -/

/-- The dispatch decoder under every legal configuration: a code of the table for the frame's message type is decoded by its
format, which a short payload fails and a longer one satisfies; any other code yields no record (R170). -/
def Obligations.DispatchFollowsTheTables : Prop :=
  ∀ (c : Config), c.Valid → ∀ (p : Bytes),
    (∀ m : CmdName,
      (p.length < (respFormat m).need c →
        dispatch c mtCommand (c.cmdCode m) p = ⟨.errMalformed (.resp m) p.length, .none⟩) ∧
      ((respFormat m).need c ≤ p.length →
        dispatch c mtCommand (c.cmdCode m) p = ⟨.ok, .record ⟨.resp m, (respFormat m).value c p⟩⟩)) ∧
    (∀ m : EvtName,
      (p.length < (evtFormat m).need c →
        dispatch c mtEvent (c.evtCode m) p = ⟨.errMalformed (.evt m) p.length, .none⟩) ∧
      ((evtFormat m).need c ≤ p.length →
        dispatch c mtEvent (c.evtCode m) p = ⟨.ok, .record ⟨.evt m, (evtFormat m).value c p⟩⟩)) ∧
    (∀ code, (∀ m, c.cmdCode m ≠ code) → dispatch c mtCommand code p = ⟨.ok, .none⟩) ∧
    (∀ code, (∀ m, c.evtCode m ≠ code) → dispatch c mtEvent code p = ⟨.ok, .none⟩)

/-! ## The parser, byte by byte -/

/-- The first byte of a frame (R141, R241): one whose low 7 bits are nonzero is rejected and leaves the machine as it was, but
for the result; 0x00 and 0x80, and no other byte, are stored at offset 0; and at any other offset no byte is rejected so. -/
def Obligations.FirstByteIsCheckedThenStored : Prop :=
  (∀ b : Byte, b &&& 0x7F = 0 ↔ b = 0x00 ∨ b = 0x80) ∧
  (∀ (s : State) (b : Byte), s.codec.rxOff = 0 →
    (b &&& 0x7F ≠ 0 → exec (.feed b) s = .next { s with results := [⟨.errFraming b, .none⟩] }) ∧
    (b &&& 0x7F = 0 → ∃ t, exec (.feed b) s = .next t ∧ StoredByte b s t)) ∧
  (∀ (s t : State) (b : Byte), s.codec.rxOff ≠ 0 → exec (.feed b) s = .next t →
    ∀ r ∈ t.results, ∀ b', r.status ≠ .errFraming b')

/-- A later byte (R142) is appended at the next offset whatever its value, the one at offset 1 becomes the payload length, and
only that one can be an illegal length; one that neither is nor completes the frame moves the offset on and changes nothing
else. -/
def Obligations.LaterBytesAreStoredUnexamined : Prop :=
  (∀ (s t : State) (b : Byte), 1 ≤ s.codec.rxOff → exec (.feed b) s = .next t →
    (∀ a, t.codec.rxBuf.read a = if a = s.codec.rxOff then some b else s.codec.rxBuf.read a) ∧
    t.codec.rxLen = (if s.codec.rxOff = 1 then b else s.codec.rxLen) ∧
    ∀ r ∈ t.results, ∀ b', r.status = .errLength b' → s.codec.rxOff = 1) ∧
  (∀ (s : State) (b : Byte), 1 ≤ s.codec.rxOff → s.codec.rxOff < cfg.bufCap →
    (s.codec.rxOff = 1 → b.toNat ≤ cfg.maxPayload) →
    ¬ (3 ≤ s.codec.rxOff ∧ s.codec.rxOff + 1 = s.codec.rxLen.toNat + 4) →
    ∃ t, exec (.feed b) s = .next t ∧ StoredByte b s t)

/-- A length byte above `MAX_PAYLOAD` abandons the frame, with `busy` as it was (41_parser R148, 60_exceptions R242; the
spec's own choice D3). -/
def Obligations.IllegalLengthByteAbandonsTheFrame : Prop :=
  ∀ (s : State) (b : Byte), s.codec.rxOff = 1 → cfg.maxPayload < b.toNat →
    ∃ t, exec (.feed b) s = .next t ∧ t.results = [⟨.errLength b, .none⟩] ∧
      t.codec.rxOff = 0 ∧ t.codec.rxLen = b ∧ t.codec.busy = s.codec.busy ∧ t.codec.txLog = s.codec.txLog ∧
      t.requests = s.requests ∧
      ∀ a, t.codec.rxBuf.read a = if a = 1 then some b else s.codec.rxBuf.read a

/-- The byte that completes a frame (R143): the frame is dispatched by its own bytes, `busy` is cleared exactly when it is a
Command frame, and the parser awaits a first byte. That a frame of a foreign class is not dispatched and still clears `busy`
is R144, the spec's own choice D15. -/
def Obligations.CompletingByteDispatchesTheFrame : Prop :=
  ∀ (s : State) (b mt len cls code : Byte) (p pre : Bytes), s.Inv →
    3 ≤ s.codec.rxOff → s.codec.rxOff + 1 = s.codec.rxLen.toNat + 4 →
    pre.length = s.codec.rxOff → (∀ a, a < pre.length → s.codec.rxBuf.read a = pre[a]?) →
    pre ++ [b] = mt :: len :: cls :: code :: p →
    ∃ t, exec (.feed b) s = .next t ∧
      t.results = [if cls = cfg.classId then dispatch cfg mt code p else ⟨.ok, .none⟩] ∧
      t.codec.rxOff = 0 ∧ t.codec.rxLen = s.codec.rxLen ∧
      t.codec.busy = (if mt = 0x00 then false else s.codec.busy) ∧
      t.codec.txLog = s.codec.txLog ∧ t.requests = s.requests ∧
      ∀ a, t.codec.rxBuf.read a = if a = s.codec.rxOff then some b else s.codec.rxBuf.read a

/-- The frame boundary law (R150), under every legal configuration and from every state that awaits a first byte: a stream
of exactly `4 + L` bytes completes exactly one frame, on its last byte, and returns the parser to `rx_off = 0`; the one
result that can carry a record is the last; `busy` is 0 after a Command frame and unchanged after an Event frame. That a
Command frame of a foreign class clears `busy` too is R144, the spec's own choice D15 (log entry 15). -/
def Obligations.OneFrameIsConsumedWhole : Prop :=
  ∀ (c : Config), c.Valid → ∀ (k : Codec) (mt len cls code : Byte) (p : Bytes),
    k.rxOff = 0 → mt = 0x00 ∨ mt = 0x80 → p.length = len.toNat → p.length ≤ c.maxPayload →
    ∃ k', feedBytes c (mt :: len :: cls :: code :: p) k =
        .ok (List.replicate (3 + p.length) ⟨.ok, .none⟩ ++
          [if cls = c.classId then dispatch c mt code p else ⟨.ok, .none⟩], k') ∧
      k'.rxOff = 0 ∧ k'.busy = (if mt = 0x00 then false else k.busy)

/-- Chunk boundaries mean nothing: feeding two chunks is feeding one chunk of both, with the results in order
(41_parser R146, the spec's own choice D31). -/
def Obligations.ChunkBoundariesMeanNothing : Prop :=
  ∀ (s : State) (xs ys : Bytes),
    exec (.feedChunk (xs ++ ys)) s =
      match exec (.feedChunk xs) s with
      | .next t =>
        match exec (.feedChunk ys) t with
        | .next u => .next { u with results := t.results ++ u.results }
        | .fault f => .fault f
        | .refused r => .refused r
      | .fault f => .fault f
      | .refused r => .refused r

/-- `FEED_CHUNK` of one byte is `FEED`, and of none does nothing (41_parser R146, the spec's own choice D31). -/
def Obligations.ShortChunksAreFeeds : Prop :=
  ∀ (s : State) (b : Byte),
    exec (.feedChunk [b]) s = exec (.feed b) s ∧ exec (.feedChunk []) s = .next { s with results := [] }

/-- `FEED` and `FEED_CHUNK` complete from every state that meets the invariants, with one result for each byte
(20_memory R43, 41_parser R145, R146). That a chunk answers a result for each byte, errors included, is the spec's own choice
D31 (log entry 19). -/
def Obligations.FeedsCompleteFromTheInvariant : Prop :=
  ∀ (s : State), s.Inv →
    (∀ b, ∃ t r, exec (.feed b) s = .next t ∧ t.results = [r] ∧ t.Inv ∧ t.requests = s.requests ∧
      t.codec.txLog = s.codec.txLog) ∧
    (∀ bs, ∃ t, exec (.feedChunk bs) s = .next t ∧ t.results.length = bs.length ∧ t.Inv ∧ t.requests = s.requests ∧
      t.codec.txLog = s.codec.txLog)

/-- One `FEED` yields one result, with a record only on a frame's last byte and only with status `OK`
(41_parser R145, 30_encoding R78). -/
def Obligations.FeedYieldsAtMostOneRecord : Prop :=
  ∀ (s t : State) (b : Byte), exec (.feed b) s = .next t →
    ∃ r, t.results = [r] ∧
      (r.out ≠ .none → r.status = .ok ∧ 3 ≤ s.codec.rxOff ∧ s.codec.rxOff + 1 = s.codec.rxLen.toNat + 4 ∧
        t.codec.rxOff = 0)

/-- How a `FEED` moves the write offset (R23): one more, or zero; and never a stop at the end of a frame. -/
def Obligations.FeedAdvancesTheOffsetByOneOrToZero : Prop :=
  ∀ (s t : State) (b : Byte), exec (.feed b) s = .next t →
    (t.codec.rxOff = s.codec.rxOff + 1 ∨ t.codec.rxOff = 0) ∧
    (t.codec.rxOff = 0 →
      (s.codec.rxOff = 0 ∧ b &&& 0x7F ≠ 0 ∧ t.codec = s.codec) ∨
      (s.codec.rxOff = 1 ∧ cfg.maxPayload < b.toNat) ∨
      (3 ≤ s.codec.rxOff ∧ s.codec.rxOff + 1 = s.codec.rxLen.toNat + 4))

/-! ## Invariants and whole-machine rules -/

/-- The reset values: of the spec's own record R32, `rx_off` is the source's, and `rx_len`, `busy` and `tx_log` the spec's
choice D16; `rx_buf` has no readable value. -/
def Obligations.ResetStateAwaitsAFirstByte : Prop :=
  State.reset.codec.rxOff = 0 ∧ State.reset.codec.rxLen = 0 ∧ State.reset.codec.busy = false ∧
  State.reset.codec.txLog = [] ∧ ∀ a, State.reset.codec.rxBuf.read a = none

/-- The invariants of R24 hold at reset. -/
def Obligations.InvariantsHoldAtReset : Prop := State.reset.Inv

/-- Every step keeps the invariants of R24 and the buffer's canonical form, from every state that meets them. -/
def Obligations.EveryStepKeepsTheInvariants : Prop :=
  ∀ (s t : State), s.Inv → step s = .next t → t.Inv

/-- No step from a state that meets the invariants stops with a fault: no access falls outside the buffer or on a byte
nothing has written (20_memory R43, 10_state R32). -/
def Obligations.NoStepFaultsFromTheInvariants : Prop :=
  ∀ (s : State), s.Inv → ∀ f, step s ≠ .fault f

/-- Under every legal configuration one `FEED` completes and keeps the invariants (R24, R43). -/
def Obligations.FeedKeepsTheInvariantsUnderEveryConfiguration : Prop :=
  ∀ (c : Config), c.Valid → ∀ (k : Codec) (b : Byte), k.Inv c →
    ∃ r k', feedByte c b k = .ok (r, k') ∧ k'.Inv c

/-- What no rule reads changes nothing the caller can see: from two states that differ only in stale bytes of the buffer, and
in `rx_len` while it is stale, every instruction returns the same results and leaves two such states again
(10_state R31). -/
def Obligations.StaleBytesAreUnobservable : Prop :=
  ∀ (i : Instr) (s₁ s₂ t₁ : State), s₁.codec.SameVisible s₂.codec → s₁.requests = s₂.requests →
    exec i s₁ = .next t₁ →
    ∃ t₂, exec i s₂ = .next t₂ ∧ t₁.results = t₂.results ∧ t₁.codec.SameVisible t₂.codec ∧
      t₁.requests = t₂.requests

/-- No operation reads what an earlier one returned (10_state R26). The port that holds it is the model's own: log entry 6. -/
def Obligations.ResultsAreNeverRead : Prop :=
  ∀ (i : Instr) (s : State) (rs : List Result), exec i { s with results := rs } = exec i s

/-- The output log is never read by the codec, and but for the codec's own reset it only grows (10_state R20, 20_memory R46). -/
def Obligations.OutputLogOnlyGrowsAndIsNeverRead : Prop :=
  ∀ (i : Instr) (s t : State), exec i s = .next t → i ≠ .opReset →
    ∃ new, t.codec.txLog = s.codec.txLog ++ new ∧ new.length ≤ 1 ∧
      ∀ l, exec i { s with codec := { s.codec with txLog := l } } =
        .next { t with codec := { t.codec with txLog := l ++ new } }

/-- What writes `busy` (41_parser R151, 10_state R25; which rows transmit and which feed a frame is the model's own choice, log
entry 1): only a transmission sets it; only a reset, or bytes from the device, clear it; and one `FEED` clears it only by
completing a frame whose stored first byte is 0x00. -/
def Obligations.OnlyTransmissionSetsBusy : Prop :=
  (∀ (i : Instr) (s t : State), exec i s = .next t → t.codec.busy ≠ s.codec.busy →
    (t.codec.busy = true ∧ (i.direction = some .hostToDevice ∨ ∃ cmd, i = .transmit cmd)) ∨
    (t.codec.busy = false ∧
      (i = .opReset ∨ i.direction = some .deviceToHost ∨ (∃ b, i = .feed b) ∨ ∃ bs, i = .feedChunk bs))) ∧
  (∀ (s t : State) (b : Byte), exec (.feed b) s = .next t → t.codec.busy ≠ s.codec.busy →
    s.codec.rxBuf.read 0 = some 0x00 ∧ 3 ≤ s.codec.rxOff ∧ s.codec.rxOff + 1 = s.codec.rxLen.toNat + 4)

/-- Nothing in the codec reads `busy` (10_state R25): whatever it holds, every instruction returns the same results and leaves
the same state but for `busy`. -/
def Obligations.BusyIsNeverRead : Prop :=
  ∀ (i : Instr) (s t : State) (v : Bool), exec i s = .next t →
    ∃ t', exec i { s with codec := { s.codec with busy := v } } = .next t' ∧
      t'.results = t.results ∧ t'.requests = t.requests ∧
      { t'.codec with busy := false } = { t.codec with busy := false }

/-! ## Values -/

/-- Two's complement both ways (42_dispatch_responses R176, with `POWER_NEG_MIN` as conflict C1 settles it, D22). -/
def Obligations.PowerBytesRoundTrip : Prop :=
  (∀ v : Int, -128 ≤ v → v ≤ 127 → sext8 cfg (tc8 v) = v) ∧
  (∀ b : Byte, tc8 (sext8 cfg b) = b ∧ -128 ≤ sext8 cfg b ∧ sext8 cfg b ≤ 127) ∧
  (∀ b : Byte, sext8 cfg b = if b.toNat < 128 then (b.toNat : Int) else (b.toNat : Int) - 256)

/-- The two byte orders: a 16-bit argument of a command goes out low byte first (R48), a 16-bit field of a response is read
high byte first (R49); so one after the other swaps the bytes (20_memory R50). -/
def Obligations.SixteenBitByteOrders : Prop :=
  (∀ v : Half, CommandRequest.payload cfg (.writeMajor v) = some (le16 v) ∧
    CommandRequest.payload cfg (.writeMinor v) = some (le16 v)) ∧
  (∀ (a b : Byte) (q : Bytes), DecFormat.u16be.value cfg (a :: b :: q) = .u16 (be16 a b)) ∧
  (∀ v : Half, le16 v = [BitVec.ofNat 8 (v.toNat &&& 0xFF), BitVec.ofNat 8 (v.toNat >>> 8)]) ∧
  (∀ a b : Byte, (be16 a b).toNat = a.toNat <<< 8 ||| b.toNat) ∧
  (∀ (v : Half) (a b : Byte), le16 v = [a, b] →
    (be16 a b).toNat = (v.toNat &&& 0xFF) <<< 8 ||| v.toNat >>> 8 ∧ (be16 a b = v ↔ a = b))

/-- The text renderings (42_dispatch_responses R172 to R175; letter case and zero stripping are the spec's own choice D20):
two uppercase digits a byte, in payload order; the model's dash; the firmware's dots less one leading zero. -/
def Obligations.TextRenderings : Prop :=
  (∀ b : Byte, hex2 b = [hexDigit (b.toNat / 16), hexDigit (b.toNat % 16)]) ∧
  (List.range 16).map hexDigit =
    ['0', '1', '2', '3', '4', '5', '6', '7', '8', '9', 'A', 'B', 'C', 'D', 'E', 'F'] ∧
  (∀ bs : Bytes, (hexString bs).length = 2 * bs.length) ∧
  (∀ (x y : Byte) (h₀ h₁ h₂ h₃ : Char), hex2 x ++ hex2 y = [h₀, h₁, h₂, h₃] →
    hexString [x, y] = [h₀, h₁, h₂, h₃] ∧
    modelString [x, y] = ['B', 'C', h₀, h₁, h₂, '-', h₃] ∧
    fwString [x, y] = if h₀ = '0' then [h₁, '.', h₂, '.', h₃] else [h₀, '.', h₁, '.', h₂, '.', h₃])

/-- Round trips between a write's request format and the read's decode format (R210): the identity for bytes, signed
bytes, flags and UUIDs; the byte swap for 16-bit values. -/
def Obligations.RequestAndDecodeFormatsRoundTrip : Prop :=
  (∀ v : Byte, DecFormat.u8.value cfg (cmdU8 v) = .u8 v) ∧
  (∀ v : Int, -128 ≤ v → v ≤ 127 → DecFormat.i8.value cfg (cmdI8 v) = .i8 v) ∧
  (∀ f : Bool, DecFormat.bool.value cfg (cmdBool f) = .bool f) ∧
  (∀ u p : Bytes, cmdUuid cfg u = some p → DecFormat.uuid16.value cfg p = .uuid u) ∧
  (∀ v : Half, ∃ w : Half, DecFormat.u16be.value cfg (cmdU16le v) = .u16 w ∧
    w.toNat = (v.toNat &&& 0xFF) <<< 8 ||| v.toNat >>> 8)

/-! ## The operations -/

/-- `ENCODE` (R100) of every request: the frame of its payload, which is no longer than 251 bytes, or `INVALID_ARGUMENT`; no
state is read or changed. -/
def Obligations.EncodeReturnsTheFrame : Prop :=
  ∀ (s : State) (cmd : CommandRequest),
    (∀ p, cmd.payload cfg = some p → p.length ≤ 251 ∧
      exec (.encode cmd) s = .next { s with results :=
        [⟨.ok, .frame (0x00 :: BitVec.ofNat 8 p.length :: cfg.classId :: cfg.cmdCode cmd.name :: p)⟩] }) ∧
    (cmd.payload cfg = none →
      exec (.encode cmd) s = .next { s with results := [⟨.invalidArgument cmd.name, .none⟩] })

/-- `TRANSMIT` of every request, whatever `busy` is: the frame is logged and `busy` set, or nothing happens but the status
(40_encoder_commands R101, R102, 60_exceptions R244; the spec's own choices D14, D19, D32). -/
def Obligations.TransmitEmitsAndSetsBusy : Prop :=
  ∀ (s : State) (cmd : CommandRequest),
    (∀ p, cmd.payload cfg = some p → exec (.transmit cmd) s = .next (afterTransmit cmd.name p s)) ∧
    (cmd.payload cfg = none →
      exec (.transmit cmd) s = .next { s with results := [⟨.invalidArgument cmd.name, .none⟩] })

/-- `INVALID_ARGUMENT` is for three requests only, and for exactly the lengths R102 names (40_encoder_commands R102,
60_exceptions R244; the spec's own choice D14). -/
def Obligations.OnlyThreeRequestsHaveIllegalArguments : Prop :=
  ∀ cmd : CommandRequest, cmd.payload cfg = none ↔
    (∃ u, cmd = .writeUuid u ∧ u.length ≠ 16) ∨
    (∃ t e r d, cmd = .sendDataBlocks t e r d ∧ 248 < d.length) ∨
    (∃ d, cmd = .respondDataRequest d ∧ 251 < d.length)

/-- `RESYNC` (41_parser R147, the spec's own choice D17): `rx_off` becomes 0, and nothing else changes. -/
def Obligations.ResyncOnlyClearsTheOffset : Prop :=
  ∀ s : State, exec .resync s =
    .next { s with codec := { s.codec with rxOff := 0 }, results := [⟨.ok, .none⟩] }

/-- The codec's own `RESET` (70_reset_and_hazards R270, the spec's own choice D16): every field of the record of R20 is at
its reset value, whatever it was; the caller's queue stays. -/
def Obligations.CodecResetStartsOver : Prop :=
  ∀ s : State, exec .opReset s = .next { s with codec := State.reset.codec, results := [⟨.ok, .none⟩] }

/-! ## The command rows -/

/-- The commands with no argument (40_encoder_commands R105 to R107, R109, R111, R113, R115, R117, R119, R121, R123, R125 to
R129, R132, R133): a frame with no payload is transmitted, and nothing else changes. That `PING` and `CANCEL_DATA_BLOCKS` have
no payload is the spec's own choice D10 (log entry 18); that a row transmits is the model's: log entry 1. -/
def Obligations.ArgumentlessCommandsAreTransmitted : Prop :=
  ∀ (s : State),
    ∀ x ∈ [(Instr.ping, CmdName.ping), (.readBtAddress, .readBtAddress), (.readVersion, .readVersion),
      (.readLoudness, .readLoudness), (.readMode, .readMode), (.readUuid, .readUuid), (.readMajor, .readMajor),
      (.readMinor, .readMinor), (.readPower, .readPower), (.readAdvEnabled, .readAdvEnabled),
      (.readEventsEnabled, .readEventsEnabled), (.readTargetSpeed, .readTargetSpeed),
      (.readModelNumber, .readModelNumber), (.readFirmwareVersion, .readFirmwareVersion),
      (.readCrashReport, .readCrashReport), (.cancelDataBlocks, .cancelDataBlocks),
      (.beginSettingsUpdate, .beginSettingsUpdate), (.endSettingsUpdate, .endSettingsUpdate)],
    exec x.1 s = .next (afterTransmit x.2 [] s)

/-- The commands with a flag (40_encoder_commands R104, R122, R124): one byte, 1 for true and 0 for false. -/
def Obligations.FlagCommandsAreTransmitted : Prop :=
  ∀ (s : State) (f : Bool),
    ∀ x ∈ [(Instr.reset f, CmdName.reset), (.writeAdvEnabled f, .writeAdvEnabled),
      (.writeEventsEnabled f, .writeEventsEnabled)],
    exec x.1 s = .next (afterTransmit x.2 [if f then 1 else 0] s)

/-- The commands with an unsigned byte (40_encoder_commands R108, R110, R112; their width is the spec's own choice D8, D9). -/
def Obligations.ByteCommandsAreTransmitted : Prop :=
  ∀ (s : State) (v : Byte),
    ∀ x ∈ [(Instr.writeVersion v, CmdName.writeVersion), (.writeLoudness v, .writeLoudness),
      (.writeMode v, .writeMode)],
    exec x.1 s = .next (afterTransmit x.2 [v] s)

/-- The commands with a 16-bit value (40_encoder_commands R116, R118): the low byte first. -/
def Obligations.SixteenBitCommandsAreTransmittedLowByteFirst : Prop :=
  ∀ (s : State) (v : Half),
    ∀ x ∈ [(Instr.writeMajor v, CmdName.writeMajor), (.writeMinor v, .writeMinor)],
    exec x.1 s = .next (afterTransmit x.2 [BitVec.ofNat 8 (v.toNat &&& 0xFF), BitVec.ofNat 8 (v.toNat >>> 8)] s)

/-- `WRITE_POWER` (40_encoder_commands R120): a negative value adds 256 before it is truncated to a byte. -/
def Obligations.PowerIsTransmittedInTwosComplement : Prop :=
  ∀ (s : State) (v : BitVec 8),
    exec (.writePower v) s = .next (afterTransmit .writePower
      [if 0 ≤ v.toInt then BitVec.ofNat 8 v.toInt.toNat else BitVec.ofNat 8 (v.toInt + 256).toNat] s)

/-- `WRITE_UUID` (40_encoder_commands R114, R102; validating is the spec's own choice D14): sixteen bytes go out verbatim; any
other number is `INVALID_ARGUMENT`, and nothing but the result changes. -/
def Obligations.UuidIsTransmittedVerbatim : Prop :=
  ∀ (s : State) (u : Bytes),
    (u.length = 16 → exec (.writeUuid u) s = .next (afterTransmit .writeUuid u s)) ∧
    (u.length ≠ 16 → exec (.writeUuid u) s = .next { s with results := [⟨.invalidArgument .writeUuid, .none⟩] })

/-- `SEND_DATA_BLOCKS` and `RESPOND_DATA_REQUEST` (40_encoder_commands R130, R131, R102; validating is the spec's own choice
D14, the order of the sub-header D33). -/
def Obligations.DataIsTransmittedVerbatim : Prop :=
  ∀ (s : State) (t e r : Byte) (d : Bytes),
    (d.length ≤ 248 → exec (.sendDataBlocks t e r d) s = .next (afterTransmit .sendDataBlocks (t :: e :: r :: d) s)) ∧
    (248 < d.length → exec (.sendDataBlocks t e r d) s =
      .next { s with results := [⟨.invalidArgument .sendDataBlocks, .none⟩] }) ∧
    (d.length ≤ 251 → exec (.respondDataRequest d) s = .next (afterTransmit .respondDataRequest d s)) ∧
    (251 < d.length → exec (.respondDataRequest d) s =
      .next { s with results := [⟨.invalidArgument .respondDataRequest, .none⟩] })

/-! ## The response rows, from a parser that awaits a first byte -/

/-- The responses that carry a response code (42_dispatch_responses R180, R184, R186, R188, R190, R192, R194, R196, R198, R200,
R205 to R209): the first payload byte, whatever its value; the rest is ignored. This format is the spec's own choice D11 for
`RESET`, `CANCEL_DATA_BLOCKS`, `SEND_DATA_BLOCKS`, `RESPOND_DATA_REQUEST` and `BEGIN`/`END_SETTINGS_UPDATE`, and D8 for
`WRITE_VERSION` (log entry 18); that a row feeds its frame is the model's: log entry 1. -/
def Obligations.ResponseCodesAreDelivered : Prop :=
  ∀ (s : State) (b : Byte) (q : Bytes), s.codec.rxOff = 0 → q.length + 1 ≤ 251 →
    ∀ x ∈ [(Instr.respReset (b :: q), CmdName.reset), (.respWriteVersion (b :: q), .writeVersion),
      (.respWriteLoudness (b :: q), .writeLoudness), (.respWriteMode (b :: q), .writeMode),
      (.respWriteUuid (b :: q), .writeUuid), (.respWriteMajor (b :: q), .writeMajor),
      (.respWriteMinor (b :: q), .writeMinor), (.respWritePower (b :: q), .writePower),
      (.respWriteAdvEnabled (b :: q), .writeAdvEnabled), (.respWriteEventsEnabled (b :: q), .writeEventsEnabled),
      (.respCancelDataBlocks (b :: q), .cancelDataBlocks), (.respSendDataBlocks (b :: q), .sendDataBlocks),
      (.respRespondDataRequest (b :: q), .respondDataRequest),
      (.respBeginSettingsUpdate (b :: q), .beginSettingsUpdate), (.respEndSettingsUpdate (b :: q), .endSettingsUpdate)],
    Consumes x.1 (responseFrame x.2 (b :: q)) ⟨.ok, .record ⟨.resp x.2, .respCode b⟩⟩ s

/-- The responses passed through whole (42_dispatch_responses R183, R201, R204; the spec's own choice D11). -/
def Obligations.RawResponsesAreDeliveredWhole : Prop :=
  ∀ (s : State) (p : Bytes), s.codec.rxOff = 0 → p.length ≤ 251 →
    ∀ x ∈ [(Instr.respReadVersion p, CmdName.readVersion), (.respReadTargetSpeed p, .readTargetSpeed),
      (.respReadCrashReport p, .readCrashReport)],
    Consumes x.1 (responseFrame x.2 p) ⟨.ok, .record ⟨.resp x.2, .raw p⟩⟩ s

/-- The responses with a fixed number of bytes (42_dispatch_responses R181, R182, R189; a ping's format is the spec's own
choice D11, the form of a UUID D21): the diagnostic block, the address as text, the UUID. -/
def Obligations.FixedBlocksAreDelivered : Prop :=
  ∀ (s : State) (p q : Bytes), s.codec.rxOff = 0 → (p ++ q).length ≤ 251 →
    (p.length = 5 → Consumes (.respPing (p ++ q)) (responseFrame .ping (p ++ q))
      ⟨.ok, .record ⟨.resp .ping, .raw p⟩⟩ s) ∧
    (p.length = 6 → Consumes (.respReadBtAddress (p ++ q)) (responseFrame .readBtAddress (p ++ q))
      ⟨.ok, .record ⟨.resp .readBtAddress, .text (p.flatMap hex2)⟩⟩ s) ∧
    (p.length = 16 → Consumes (.respReadUuid (p ++ q)) (responseFrame .readUuid (p ++ q))
      ⟨.ok, .record ⟨.resp .readUuid, .uuid p⟩⟩ s)

/-- The responses read from one byte (42_dispatch_responses R185, R187, R195, R197, R199): loudness and mode (their width is the
spec's own choice D9), power in two's complement (C1, D22), the two flags. -/
def Obligations.ScalarResponsesAreDelivered : Prop :=
  ∀ (s : State) (b : Byte) (q : Bytes), s.codec.rxOff = 0 → q.length + 1 ≤ 251 →
    ∀ x ∈ [(Instr.respReadLoudness (b :: q), CmdName.readLoudness, Value.u8 b),
      (.respReadMode (b :: q), .readMode, .u8 b),
      (.respReadPower (b :: q), .readPower, .i8 (if b.toNat < 128 then b.toNat else (b.toNat : Int) - 256)),
      (.respReadAdvEnabled (b :: q), .readAdvEnabled, .bool (decide (b ≠ 0))),
      (.respReadEventsEnabled (b :: q), .readEventsEnabled, .bool (decide (b ≠ 0)))],
    Consumes x.1 (responseFrame x.2.1 (b :: q)) ⟨.ok, .record ⟨.resp x.2.1, x.2.2⟩⟩ s

/-- The major and minor responses (42_dispatch_responses R191, R193), as rows and as chunks of input: two bytes, the high byte
first; excess bytes are ignored, and fewer than two bytes are malformed. That a row feeds its frame is the model's own choice:
log entry 1. -/
def Obligations.MajorAndMinorAreBigEndian : Prop :=
  ∀ (s : State) (p : Bytes), s.codec.rxOff = 0 → p.length ≤ 251 →
    ∀ x ∈ [(Instr.respReadMajor p, CmdName.readMajor), (.respReadMinor p, .readMinor),
      (.feedChunk (responseFrame .readMajor p), .readMajor), (.feedChunk (responseFrame .readMinor p), .readMinor)],
    (∀ hi lo q, p = hi :: lo :: q → Consumes x.1 (responseFrame x.2 p)
      ⟨.ok, .record ⟨.resp x.2, .u16 (BitVec.ofNat 16 (hi.toNat <<< 8 ||| lo.toNat))⟩⟩ s) ∧
    (p.length < 2 → Consumes x.1 (responseFrame x.2 p) ⟨.errMalformed (.resp x.2) p.length, .none⟩ s)

/-- The model and firmware responses (42_dispatch_responses R202, R203 with R174, R175; letter case and zero stripping are the
spec's own choice D20). -/
def Obligations.ModelAndFirmwareTexts : Prop :=
  ∀ (s : State) (x y : Byte) (q : Bytes) (h₀ h₁ h₂ h₃ : Char), s.codec.rxOff = 0 → q.length + 2 ≤ 251 →
    hex2 x ++ hex2 y = [h₀, h₁, h₂, h₃] →
    Consumes (.respReadModelNumber (x :: y :: q)) (responseFrame .readModelNumber (x :: y :: q))
      ⟨.ok, .record ⟨.resp .readModelNumber, .text ['B', 'C', h₀, h₁, h₂, '-', h₃]⟩⟩ s ∧
    Consumes (.respReadFirmwareVersion (x :: y :: q)) (responseFrame .readFirmwareVersion (x :: y :: q))
      ⟨.ok, .record ⟨.resp .readFirmwareVersion,
        .text (if h₀ = '0' then [h₁, '.', h₂, '.', h₃] else [h₀, '.', h₁, '.', h₂, '.', h₃])⟩⟩ s

/-- A payload shorter than its format needs (42_dispatch_responses R171, 43_dispatch_events R225, 60_exceptions R243; the spec's
own choice D13): the frame is consumed like any other and answers `ERR_MALFORMED` with no record. A ping's need of five bytes,
and the response-code formats that the source does not assign, are the spec's own choices D11 and D8, the one byte of loudness
and mode D9 (log entry 18); that a row feeds its frame is the model's: log entry 1. -/
def Obligations.ShortPayloadsAreMalformed : Prop :=
  ∀ (s : State) (p : Bytes), s.codec.rxOff = 0 →
    (∀ x ∈ [(Instr.respReset p, CmdName.reset, 1), (.respPing p, .ping, 5), (.respReadBtAddress p, .readBtAddress, 6),
        (.respWriteVersion p, .writeVersion, 1), (.respReadLoudness p, .readLoudness, 1),
        (.respWriteLoudness p, .writeLoudness, 1), (.respReadMode p, .readMode, 1), (.respWriteMode p, .writeMode, 1),
        (.respReadUuid p, .readUuid, 16), (.respWriteUuid p, .writeUuid, 1), (.respReadMajor p, .readMajor, 2),
        (.respWriteMajor p, .writeMajor, 1), (.respReadMinor p, .readMinor, 2), (.respWriteMinor p, .writeMinor, 1),
        (.respReadPower p, .readPower, 1), (.respWritePower p, .writePower, 1),
        (.respReadAdvEnabled p, .readAdvEnabled, 1), (.respWriteAdvEnabled p, .writeAdvEnabled, 1),
        (.respReadEventsEnabled p, .readEventsEnabled, 1), (.respWriteEventsEnabled p, .writeEventsEnabled, 1),
        (.respReadModelNumber p, .readModelNumber, 2), (.respReadFirmwareVersion p, .readFirmwareVersion, 2),
        (.respCancelDataBlocks p, .cancelDataBlocks, 1), (.respSendDataBlocks p, .sendDataBlocks, 1),
        (.respRespondDataRequest p, .respondDataRequest, 1), (.respBeginSettingsUpdate p, .beginSettingsUpdate, 1),
        (.respEndSettingsUpdate p, .endSettingsUpdate, 1)],
      p.length < x.2.2 →
      Consumes x.1 (responseFrame x.2.1 p) ⟨.errMalformed (.resp x.2.1) p.length, .none⟩ s) ∧
    (p.length < 1 →
      Consumes (.evtError p) (eventFrame .error p) ⟨.errMalformed (.evt .error) p.length, .none⟩ s)

/-! ## The event rows -/

/-- The events passed through whole (43_dispatch_events R220 to R224, R226 to R229; for all but connect without a payload and
data-request the spec's own choice D12), `busy` untouched. -/
def Obligations.RawEventsAreDeliveredWhole : Prop :=
  ∀ (s : State) (p : Bytes), s.codec.rxOff = 0 → p.length ≤ 251 →
    ∀ x ∈ [(Instr.evtConnect p, EvtName.connect), (.evtDisconnect p, .disconnect), (.evtDebug p, .debug),
      (.evtAuthSucceeded p, .authSucceeded), (.evtAuthFailed p, .authFailed), (.evtSettingsSaved p, .settingsSaved),
      (.evtDataRequest p, .dataRequest), (.evtDataBlocksSent p, .dataBlocksSent),
      (.evtDataIndicated p, .dataIndicated)],
    Consumes x.1 (eventFrame x.2 p) ⟨.ok, .record ⟨.evt x.2, .raw p⟩⟩ s

/-- The error event (43_dispatch_events R225), as a row and as a chunk of input: its first payload byte, raw; an empty payload
is malformed; and `busy` is not cleared. That a row feeds its frame is the model's own choice: log entry 1. -/
def Obligations.ErrorEventDeliversItsCode : Prop :=
  ∀ (s : State) (p : Bytes), s.codec.rxOff = 0 → p.length ≤ 251 →
    ∀ i ∈ [Instr.evtError p, .feedChunk (eventFrame .error p)],
    ∃ t, exec i s = .next t ∧ t.codec.busy = s.codec.busy ∧
      (∀ b q, p = b :: q → ConsumedFrame (eventFrame .error p) ⟨.ok, .record ⟨.evt .error, .u8 b⟩⟩ s t) ∧
      (p = [] → ConsumedFrame (eventFrame .error p) ⟨.errMalformed (.evt .error) 0, .none⟩ s t)

/-! ## The frame rows in every state -/

/-- A response or event row is the feeding of its frame's bytes in every state, so that in the middle of another frame its bytes
are absorbed like any others (43_dispatch_events R230; that a row means this is the model's own choice: log entry 1). -/
def Obligations.InboundRowsFeedTheirFrame : Prop :=
  ∀ (i : Instr) (f : Bytes) (s : State), i.direction = some .deviceToHost → encode i = some f →
    exec i s = exec (.feedChunk f) s

/-- A response or event row whose payload no frame can hold is refused by name in every state (30_encoding R60, R62; the refusal
is the model's own: log entry 20). -/
def Obligations.OverlongRowsAreRefused : Prop :=
  ∀ (i : Instr) (s : State), i.direction = some .deviceToHost → i.wellFormed cfg = false →
    exec i s = .refused .notAFrame

/-- R103 read literally: a command frame fed back to a parser that awaits a first byte answers `OK` on every byte. It is
expected to FAIL: R171 and R191 make the zero-length frame of `READ_MAJOR` a malformed response (vector F14; log entry 11). -/
def Obligations.FeedingBackAnyCommandAnswersOk : Prop :=
  ∀ (s : State) (cmd : CommandRequest) (f : Bytes), s.codec.rxOff = 0 → encodeRequest cfg cmd = some f →
    ∃ t, exec (.feedChunk f) s = .next t ∧ ∀ r ∈ t.results, r.status = .ok
end

