-- ==== Sys2Proof/Laws/Decode.lean ====
section
/-! SUPPORT. The laws of the wire: the code tables' lookups, the configuration of this hardware, and splitting a frame. -/

namespace Sys2Proof

theorem CmdName.mem_all (m : CmdName) : m ∈ CmdName.all := by cases m <;> decide

theorem EvtName.mem_all (m : EvtName) : m ∈ EvtName.all := by cases m <;> decide

/-- A command code found names its command. -/
theorem findCmd_some {c : Config} {code : Byte} {m : CmdName} (h : findCmd c code = some m) : c.cmdCode m = code := by
  simpa using List.find?_some h

/-- An event code found names its event. -/
theorem findEvt_some {c : Config} {code : Byte} {m : EvtName} (h : findEvt c code = some m) : c.evtCode m = code := by
  simpa using List.find?_some h

/-- Every command is found under its code (R170: the table is injective). -/
theorem findCmd_cmdCode {c : Config} (hc : c.Valid) (m : CmdName) : findCmd c (c.cmdCode m) = some m := by
  cases h : findCmd c (c.cmdCode m) with
  | none =>
    have := List.find?_eq_none.mp h m m.mem_all
    simp at this
  | some n => rw [hc.cmdCode_injective n m (findCmd_some h)]

/-- Every event is found under its code. -/
theorem findEvt_evtCode {c : Config} (hc : c.Valid) (m : EvtName) : findEvt c (c.evtCode m) = some m := by
  cases h : findEvt c (c.evtCode m) with
  | none =>
    have := List.find?_eq_none.mp h m m.mem_all
    simp at this
  | some n => rw [hc.evtCode_injective n m (findEvt_some h)]

/-- A code of no command is not found. -/
theorem findCmd_none {c : Config} {code : Byte} (h : ∀ m, c.cmdCode m ≠ code) : findCmd c code = none :=
  List.find?_eq_none.mpr fun m _ => by simpa using h m

/-- A code of no event is not found. -/
theorem findEvt_none {c : Config} {code : Byte} (h : ∀ m, c.evtCode m ≠ code) : findEvt c code = none :=
  List.find?_eq_none.mpr fun m _ => by simpa using h m

/-- The default command code of a command is its place in the list of R70. -/
theorem all_defaultCmdCode (m : CmdName) : CmdName.all[(defaultCmdCode m).toNat]? = some m := by cases m <;> rfl

/-- The default event code of an event is one more than its place in the list of R71. -/
theorem all_defaultEvtCode (m : EvtName) : EvtName.all[(defaultEvtCode m).toNat - 1]? = some m := by cases m <;> rfl

/-- The configuration of this hardware meets R8's constraints. -/
theorem cfg_valid : cfg.Valid where
  maxFrame_le_bufCap := by decide
  cmdCode_injective a b h := by
    have ha := all_defaultCmdCode a
    rw [show defaultCmdCode a = defaultCmdCode b from h, all_defaultCmdCode b] at ha
    exact (Option.some.inj ha).symm
  evtCode_injective a b h := by
    have ha := all_defaultEvtCode a
    rw [show defaultEvtCode a = defaultEvtCode b from h, all_defaultEvtCode b] at ha
    exact (Option.some.inj ha).symm
  readMajor_anchor := rfl
  writeMajor_anchor := rfl
  connect_anchor := rfl
  maxPayload_lt := by decide
  two_le_maxPayload := by decide
  uuidLen_le := by decide

/-- The length byte of a legal frame counts its payload. -/
theorem length_byte {c : Config} (hc : c.Valid) {p : Bytes} (h : p.length ≤ c.maxPayload) :
    (BitVec.ofNat 8 p.length).toNat = p.length := by
  have := hc.maxPayload_lt
  simp only [BitVec.toNat_ofNat]
  omega

/-- Splitting a legal frame gives its parts. -/
theorem splitFrame_frame {c : Config} (hc : c.Valid) {mt code : Byte} {p : Bytes} (hmt : mt = mtCommand ∨ mt = mtEvent)
    (h : p.length ≤ c.maxPayload) : splitFrame c (frame c mt code p) = .ok (mt, code, p) := by
  have hl := length_byte hc h
  have hm : ¬ (mt ≠ mtCommand ∧ mt ≠ mtEvent) := by tauto
  simp only [splitFrame, frame, hl, if_neg hm, if_neg (Nat.not_lt.mpr h), Nat.lt_irrefl, if_false, ne_eq,
    not_true_eq_false]

/-- Bytes that split are the frame of their parts. -/
theorem splitFrame_ok {c : Config} {bs p : Bytes} {mt code : Byte} (h : splitFrame c bs = .ok (mt, code, p)) :
    bs = frame c mt code p ∧ (mt = mtCommand ∨ mt = mtEvent) ∧ p.length ≤ c.maxPayload := by
  unfold splitFrame at h
  split at h
  · next mt' len cls code' p' =>
    split at h; · simp at h
    split at h; · simp at h
    split at h; · simp at h
    split at h; · simp at h
    split at h; · simp at h
    simp only [Except.ok.injEq, Prod.mk.injEq] at h
    obtain ⟨rfl, rfl, rfl⟩ := h
    have hl : p'.length = len.toNat := by omega
    refine ⟨?_, by tauto, by omega⟩
    simp only [frame, hl, BitVec.ofNat_toNat, BitVec.setWidth_eq]
    simp_all
  · simp at h

/-- Two's complement on a signed byte gives the byte back (R11). -/
@[simp] theorem tc8_toInt (v : BitVec 8) : tc8 v.toInt = v := by
  revert v; decide

/-- The value of two bytes side by side. -/
theorem append_toNat (hi lo : Byte) : (hi ++ lo : Half).toNat = hi.toNat * 256 + lo.toNat := by
  have h := BitVec.toNat_append hi lo
  rw [← Nat.shiftLeft_add_eq_or_of_lt lo.isLt, Nat.shiftLeft_eq] at h
  exact h

theorem low_toNat (v : Half) : (v.extractLsb' 0 8).toNat = v.toNat % 256 := by
  simp [BitVec.extractLsb'_toNat]

theorem high_toNat (v : Half) : (v.extractLsb' 8 8).toNat = v.toNat / 256 := by
  have := v.isLt
  rw [BitVec.extractLsb'_toNat, Nat.shiftRight_eq_div_pow]
  omega

/-- A 16-bit value is its high byte beside its low byte. -/
theorem high_append_low (v : Half) : (v.extractLsb' 8 8 ++ v.extractLsb' 0 8 : Half) = v := by
  apply BitVec.eq_of_toNat_eq
  rw [append_toNat, low_toNat, high_toNat]
  omega

/-- The little-endian bytes of two bytes side by side (R48). -/
theorem le16_append (hi lo : Byte) : le16 (hi ++ lo) = [lo, hi] := by
  have hl : BitVec.extractLsb' 0 8 (hi ++ lo : Half) = lo := by
    apply BitVec.eq_of_toNat_eq
    rw [low_toNat, append_toNat]
    have := lo.isLt
    omega
  have hh : BitVec.extractLsb' 8 8 (hi ++ lo : Half) = hi := by
    apply BitVec.eq_of_toNat_eq
    rw [high_toNat, append_toNat]
    have := lo.isLt
    omega
  simp only [le16]
  exact congrArg₂ (fun a b => [a, b]) hl hh

end Sys2Proof
end

