-- ==== Sys2Proof/Laws/State.lean ====
section
/-! SUPPORT. One lemma for each field under each update the shared operations make, so that no later proof unfolds a record
update. -/

namespace Sys2Proof.Machine

open Sys2Proof

@[simp] theorem State.deliver_codec (s : State) (k : Codec) (rs : List Result) : (s.deliver k rs).codec = k := rfl
@[simp] theorem State.deliver_results (s : State) (k : Codec) (rs : List Result) : (s.deliver k rs).results = rs := rfl
@[simp] theorem State.deliver_requests (s : State) (k : Codec) (rs : List Result) :
    (s.deliver k rs).requests = s.requests := rfl

@[simp] theorem emit_txLog (f : Bytes) (k : Codec) : (emit f k).txLog = k.txLog ++ [f] := rfl
@[simp] theorem emit_rxBuf (f : Bytes) (k : Codec) : (emit f k).rxBuf = k.rxBuf := rfl
@[simp] theorem emit_rxOff (f : Bytes) (k : Codec) : (emit f k).rxOff = k.rxOff := rfl
@[simp] theorem emit_rxLen (f : Bytes) (k : Codec) : (emit f k).rxLen = k.rxLen := rfl
@[simp] theorem emit_busy (f : Bytes) (k : Codec) : (emit f k).busy = k.busy := rfl

@[simp] theorem Codec.reset_rxBuf : Codec.reset.rxBuf = [] := rfl
@[simp] theorem Codec.reset_rxOff : Codec.reset.rxOff = 0 := rfl
@[simp] theorem Codec.reset_rxLen : Codec.reset.rxLen = 0 := rfl
@[simp] theorem Codec.reset_busy : Codec.reset.busy = false := rfl
@[simp] theorem Codec.reset_txLog : Codec.reset.txLog = [] := rfl

@[simp] theorem State.reset_codec : State.reset.codec = Codec.reset := rfl
@[simp] theorem State.reset_requests : State.reset.requests = [] := rfl
@[simp] theorem State.reset_results : State.reset.results = [] := rfl

@[simp] theorem raise_result (st : Status) (k : Codec) : (raise st k).1 = ⟨st, .none⟩ := rfl
@[simp] theorem raise_codec (st : Status) (k : Codec) : (raise st k).2 = k := rfl
@[simp] theorem returnOk_result (out : Output) (k : Codec) : (returnOk out k).1 = ⟨.ok, out⟩ := rfl
@[simp] theorem returnOk_codec (out : Output) (k : Codec) : (returnOk out k).2 = k := rfl

@[simp] theorem finish_eq (s : State) (x : Result × Codec) : finish s x = .next (s.deliver x.2 [x.1]) := rfl
@[simp] theorem finishAll_ok (s : State) (rs : List Result) (k : Codec) :
    finishAll s (.ok (rs, k)) = .next (s.deliver k rs) := rfl
@[simp] theorem finishAll_error (s : State) (f : Fault) : finishAll s (.error f) = .fault f := rfl

/-- Where an operation that may stop on the buffer answers a next state, it ended normally and the state is the delivered
one. -/
theorem finishAll_next {s t : State} {x : Except Fault (List Result × Codec)} (h : finishAll s x = .next t) :
    ∃ rs k, x = .ok (rs, k) ∧ t = s.deliver k rs := by
  match x, h with
  | .ok (rs, k), h => exact ⟨rs, k, rfl, (Host.Outcome.next.inj h).symm⟩

@[simp] theorem busyAfterTransmit_eq (b : Bool) : busyAfterTransmit b = true := rfl
@[simp] theorem busyAfterFrame_command (b : Bool) : busyAfterFrame mtCommand b = false := rfl
@[simp] theorem busyAfterFrame_event (b : Bool) : busyAfterFrame mtEvent b = b := rfl

@[simp] theorem State.fetch_nil (s : State) : State.fetch { s with requests := [] } = none := rfl
@[simp] theorem State.fetch_cons (s : State) (r : Request) (rest : List Request) :
    State.fetch { s with requests := r :: rest } = some (r, { s with requests := rest }) := rfl

end Sys2Proof.Machine
end

