-- ==== Sys2Proof/Laws/Memory.lean ====
section
/-! SUPPORT. The laws of the receive buffer: a read after a write, the canonical form, and the accesses' bounds. -/

namespace Sys2Proof.Machine

open Sys2Proof

@[simp] theorem Memory.read_nil (a : Nat) : Memory.read [] a = none := rfl

/-- A read after a write: the written byte at its offset, and what was there anywhere else. -/
@[simp] theorem Memory.read_write (m : Memory) (a : Nat) (v : Byte) (a' : Nat) :
    (m.write a v).read a' = if a' = a then some v else m.read a' := by
  induction m with
  | nil => simp [Memory.write, Memory.read]
  | cons x t ih =>
    obtain ⟨b, w⟩ := x
    simp only [Memory.write]
    split
    · simp [Memory.read]
    · split
      · subst b
        simp only [Memory.read]
        split <;> simp_all
      · simp only [Memory.read, ih]
        split
        · next h => subst b; rw [if_neg (by omega)]
        · rfl

/-- What a written memory lists: the written cell, and cells that were listed. -/
theorem Memory.mem_write {m : Memory} {a : Nat} {v : Byte} {x : Host.Cell} (h : x ∈ m.write a v) :
    x = (a, v) ∨ x ∈ m := by
  induction m with
  | nil => simpa [Memory.write] using h
  | cons y t ih =>
    obtain ⟨b, w⟩ := y
    simp only [Memory.write] at h
    split at h
    · simpa using h
    · split at h
      · simp only [List.mem_cons] at h ⊢; tauto
      · simp only [List.mem_cons] at h ⊢
        rcases h with h | h
        · tauto
        · rcases ih h with h | h <;> tauto

/-- A write keeps the canonical form. -/
theorem Memory.write_wf {m : Memory} (a : Nat) (v : Byte) (h : m.wf = true) : (m.write a v).wf = true := by
  induction m with
  | nil => rfl
  | cons y t ih =>
    obtain ⟨b, w⟩ := y
    simp only [Memory.wf, Bool.and_eq_true, List.all_eq_true, decide_eq_true_eq] at h
    simp only [Memory.write]
    split
    · simp only [Memory.wf, Bool.and_eq_true, List.all_eq_true, decide_eq_true_eq, List.mem_cons]
      refine ⟨fun x hx => ?_, h⟩
      rcases hx with rfl | hx
      · assumption
      · have := h.1 x hx; omega
    · split
      · subst b
        simpa only [Memory.wf, Bool.and_eq_true, List.all_eq_true, decide_eq_true_eq] using h
      · simp only [Memory.wf, Bool.and_eq_true, List.all_eq_true, decide_eq_true_eq]
        refine ⟨fun x hx => ?_, ih h.2⟩
        rcases Memory.mem_write hx with rfl | hx
        · simp only; omega
        · exact h.1 x hx

/-- Reset memory has the canonical form. -/
theorem reset_memory_wf : State.reset.codec.rxBuf.wf = true := rfl

/-- A write inside the buffer. -/
theorem bufWrite_ok {c : Config} {a : Nat} (v : Byte) (m : Memory) (h : a < c.bufCap) :
    bufWrite c a v m = .ok (m.write a v) := if_pos h

/-- A write that ended was inside the buffer. -/
theorem bufWrite_eq_ok {c : Config} {a : Nat} {v : Byte} {m m' : Memory} (h : bufWrite c a v m = .ok m') :
    a < c.bufCap ∧ m' = m.write a v := by
  unfold bufWrite at h
  split at h
  · exact ⟨‹_›, (Except.ok.inj h).symm⟩
  · simp at h

/-- A read of a stored byte inside the buffer. -/
theorem bufRead_ok {c : Config} {a : Nat} {m : Memory} {v : Byte} (h : a < c.bufCap) (hv : m.read a = some v) :
    bufRead c a m = .ok v := by simp [bufRead, h, hv]

/-- A read that ended was of a stored byte inside the buffer. -/
theorem bufRead_eq_ok {c : Config} {a : Nat} {m : Memory} {v : Byte} (h : bufRead c a m = .ok v) :
    a < c.bufCap ∧ m.read a = some v := by
  unfold bufRead at h
  split at h
  · split at h
    · next hw => exact ⟨‹_›, by rw [hw, Except.ok.inj h]⟩
    · simp at h
  · simp at h

/-- Reading the bytes a memory holds from an offset on. -/
theorem bufReadN_ok {c : Config} {m : Memory} :
    ∀ {p : Bytes} {a : Nat}, (∀ i, i < p.length → m.read (a + i) = p[i]?) → a + p.length ≤ c.bufCap →
      bufReadN c m a p.length = .ok p
  | [], _, _, _ => rfl
  | v :: p, a, h, hc => by
    have h0 : bufRead c a m = .ok v :=
      bufRead_ok (by simp only [List.length_cons] at hc; omega) (by simpa using h 0 (by simp))
    have ih := bufReadN_ok (c := c) (m := m) (p := p) (a := a + 1)
      (fun i hi => by
        have := h (i + 1) (by simpa using hi)
        rw [show a + 1 + i = a + (i + 1) by omega, this]; simp)
      (by simp only [List.length_cons] at hc; omega)
    simp [bufReadN, h0, ih]

/-- A read of `n` bytes depends only on those bytes. -/
theorem bufReadN_congr {c : Config} {m m' : Memory} :
    ∀ {n a : Nat}, (∀ i, i < n → m.read (a + i) = m'.read (a + i)) → bufReadN c m a n = bufReadN c m' a n
  | 0, _, _ => rfl
  | n + 1, a, h => by
    have h0 : bufRead c a m = bufRead c a m' := by
      have := h 0 (by omega)
      simp only [Nat.add_zero] at this
      simp only [bufRead, this]
    have ih := bufReadN_congr (c := c) (m := m) (m' := m') (n := n) (a := a + 1)
      (fun i hi => by
        have := h (i + 1) (by omega)
        rwa [show a + 1 + i = a + (i + 1) by omega])
    simp only [bufReadN, h0, ih]

/-- Stored bytes inside the buffer can be read. -/
theorem bufReadN_total {c : Config} {m : Memory} :
    ∀ {n a : Nat}, (∀ i, i < n → ∃ v, m.read (a + i) = some v) → a + n ≤ c.bufCap → ∃ p, bufReadN c m a n = .ok p
  | 0, _, _, _ => ⟨[], rfl⟩
  | n + 1, a, h, hc => by
    obtain ⟨v, hv⟩ := h 0 (by omega)
    obtain ⟨p, hp⟩ := bufReadN_total (c := c) (m := m) (n := n) (a := a + 1)
      (fun i hi => by
        obtain ⟨w, hw⟩ := h (i + 1) (by omega)
        exact ⟨w, by rw [← hw]; congr 1; omega⟩) (by omega)
    exact ⟨v :: p, by simp [bufReadN, bufRead_ok (c := c) (a := a) (by omega) (by simpa using hv), hp]⟩

end Sys2Proof.Machine
end

