-- ==== Sys2Proof/Laws/Ops.lean ====
section
/-! SUPPORT. One lemma for each thing a shared operation can do, and one inversion lemma for `FEED` that says everything it can
do (spec/41_parser.md R140). -/

namespace Sys2Proof.Machine

open Sys2Proof

/-! ## The output side -/

theorem encodeRequest_some {c : Config} {cmd : CommandRequest} {p : Bytes} (h : cmd.payload c = some p) :
    encodeRequest c cmd = some (frame c mtCommand (c.cmdCode cmd.name) p) := by simp [encodeRequest, h]

theorem encodeRequest_none {c : Config} {cmd : CommandRequest} (h : cmd.payload c = none) :
    encodeRequest c cmd = none := by simp [encodeRequest, h]

/-- `ENCODE` of a request with a frame. -/
theorem encodeOp_some {c : Config} {cmd : CommandRequest} {f : Bytes} (k : Codec) (h : encodeRequest c cmd = some f) :
    encodeOp c cmd k = (⟨.ok, .frame f⟩, k) := by simp [encodeOp, h, returnOk]

/-- `ENCODE` of a request without one. -/
theorem encodeOp_none {c : Config} {cmd : CommandRequest} (k : Codec) (h : encodeRequest c cmd = none) :
    encodeOp c cmd k = (⟨.invalidArgument cmd.name, .none⟩, k) := by simp [encodeOp, h, raise]

/-- `TRANSMIT` of a request with a frame. -/
theorem transmitOp_some {c : Config} {cmd : CommandRequest} {f : Bytes} (k : Codec) (h : encodeRequest c cmd = some f) :
    transmitOp c cmd k = (⟨.ok, .none⟩, { k with txLog := k.txLog ++ [f], busy := true }) := by
  simp [transmitOp, h, returnOk, emit]

/-- `TRANSMIT` of a request without one. -/
theorem transmitOp_none {c : Config} {cmd : CommandRequest} (k : Codec) (h : encodeRequest c cmd = none) :
    transmitOp c cmd k = (⟨.invalidArgument cmd.name, .none⟩, k) := by simp [transmitOp, h, raise]

/-! ## The dispatch decoder -/

/-- A payload with the bytes its format needs is decoded. -/
theorem decodeFormat_ok {c : Config} {fmt : DecFormat} {p : Bytes} (kd : Kind) (h : fmt.need c ≤ p.length) :
    decodeFormat c fmt p kd = ⟨.ok, .record ⟨kd, fmt.value c p⟩⟩ := if_neg (Nat.not_lt.mpr h)

/-- A shorter one is malformed. -/
theorem decodeFormat_short {c : Config} {fmt : DecFormat} {p : Bytes} (kd : Kind) (h : p.length < fmt.need c) :
    decodeFormat c fmt p kd = ⟨.errMalformed kd p.length, .none⟩ := if_pos h

theorem dispatch_command {c : Config} (hc : c.Valid) (m : CmdName) (p : Bytes) :
    dispatch c mtCommand (c.cmdCode m) p = decodeFormat c (respFormat m) p (.resp m) := by
  simp [dispatch, findCmd_cmdCode hc]

theorem dispatch_event {c : Config} (hc : c.Valid) (m : EvtName) (p : Bytes) :
    dispatch c mtEvent (c.evtCode m) p = decodeFormat c (evtFormat m) p (.evt m) := by
  simp [dispatch, findEvt_evtCode hc, show (mtEvent = mtCommand) = False by decide]

/-! ## `FEED`, one way at a time -/

/-- The codec after the byte `b` has been stored at `rx_off`, which has moved past it. -/
def Codec.store (b : Byte) (k : Codec) : Codec :=
  { k with
    rxBuf := k.rxBuf.write k.rxOff b
    rxOff := k.rxOff + 1
    rxLen := if k.rxOff = 1 then b else k.rxLen }

@[simp] theorem Codec.store_rxBuf (b : Byte) (k : Codec) : (k.store b).rxBuf = k.rxBuf.write k.rxOff b := rfl
@[simp] theorem Codec.store_rxOff (b : Byte) (k : Codec) : (k.store b).rxOff = k.rxOff + 1 := rfl
@[simp] theorem Codec.store_rxLen (b : Byte) (k : Codec) :
    (k.store b).rxLen = if k.rxOff = 1 then b else k.rxLen := rfl
@[simp] theorem Codec.store_busy (b : Byte) (k : Codec) : (k.store b).busy = k.busy := rfl
@[simp] theorem Codec.store_txLog (b : Byte) (k : Codec) : (k.store b).txLog = k.txLog := rfl

theorem Codec.isComplete_pastByte (k : Codec) :
    k.pastByte.isComplete = true ↔ 3 ≤ k.rxOff ∧ k.rxOff + 1 = k.rxLen.toNat + hdrLen := by
  unfold Codec.isComplete
  rw [Bool.and_eq_true, decide_eq_true_iff, beq_iff_eq]
  simp only [Codec.pastByte, hdrLen]
  omega

/-- The offset moves past the last byte of a frame. -/
theorem advance_completing {c : Config} {k : Codec} (h3 : 3 ≤ k.rxOff) (he : k.rxOff + 1 = k.rxLen.toNat + hdrLen) :
    advance c k = completeFrame c k.pastByte := if_pos (k.isComplete_pastByte.mpr ⟨h3, he⟩)

/-- The offset moves past any other byte. -/
theorem advance_incomplete {c : Config} {k : Codec} (h : ¬ (3 ≤ k.rxOff ∧ k.rxOff + 1 = k.rxLen.toNat + hdrLen)) :
    advance c k = .ok (⟨.ok, .none⟩, k.pastByte) := if_neg (fun hc => h (k.isComplete_pastByte.mp hc))

/-- A first byte whose low 7 bits are nonzero. -/
theorem feedByte_rejected {c : Config} {b : Byte} {k : Codec} (h0 : k.rxOff = 0) (hb : b.extractLsb' 0 7 ≠ 0) :
    feedByte c b k = .ok (⟨.errFraming b, .none⟩, k) := by
  simp only [feedByte, if_pos h0, feedFirst, if_pos hb, raise]

/-- A byte that neither is rejected nor completes the frame. -/
theorem feedByte_stored {c : Config} {b : Byte} {k : Codec} (hcap : k.rxOff < c.bufCap)
    (h0 : k.rxOff = 0 → b.extractLsb' 0 7 = 0) (h1 : k.rxOff = 1 → b.toNat ≤ c.maxPayload)
    (hn : ¬ (3 ≤ k.rxOff ∧ k.rxOff + 1 = k.rxLen.toNat + hdrLen)) :
    feedByte c b k = .ok (⟨.ok, .none⟩, k.store b) := by
  by_cases hz : k.rxOff = 0
  · have hw := bufWrite_ok (c := c) b k.rxBuf (a := 0) (by omega)
    simp [feedByte, hz, feedFirst, h0 hz, hw, returnOk, Codec.store]
  · have hw := bufWrite_ok (c := c) b k.rxBuf hcap
    by_cases ho : k.rxOff = 1
    · have := h1 ho
      rw [ho] at hw
      simp only [feedByte, feedLater, ho, hw, if_neg (show ¬ (1 : Nat) = 0 by omega), if_true,
        if_neg (show ¬ c.maxPayload < b.toNat by omega)]
      rw [advance_incomplete (by simp)]
      simp [Codec.store, Codec.pastByte, ho]
    · simp only [feedByte, if_neg hz, feedLater, hw, if_neg ho]
      rw [advance_incomplete (by simpa using hn)]
      simp [Codec.store, Codec.pastByte, ho]

/-- A length byte above `MAX_PAYLOAD`. -/
theorem feedByte_illegal {c : Config} {b : Byte} {k : Codec} (hcap : 1 < c.bufCap) (h1 : k.rxOff = 1)
    (hb : c.maxPayload < b.toNat) :
    feedByte c b k = .ok (⟨.errLength b, .none⟩, { k with rxBuf := k.rxBuf.write 1 b, rxLen := b, rxOff := 0 }) := by
  have hw := bufWrite_ok (c := c) b k.rxBuf hcap
  simp [feedByte, feedLater, h1, hw, hb, raise]

/-- The byte that completes a frame: what follows is the completion of the codec that has stored it. -/
theorem feedByte_completing {c : Config} {b : Byte} {k : Codec} (hcap : k.rxOff < c.bufCap) (h3 : 3 ≤ k.rxOff)
    (he : k.rxOff + 1 = k.rxLen.toNat + hdrLen) : feedByte c b k = completeFrame c (k.store b) := by
  have hw := bufWrite_ok (c := c) b k.rxBuf hcap
  have h1 : ¬ k.rxOff = 1 := by omega
  simp only [feedByte, if_neg (show ¬ k.rxOff = 0 by omega), feedLater, hw, if_neg h1]
  rw [advance_completing (by simpa using h3) (by simpa using he)]
  simp [Codec.store, Codec.pastByte, h1]

/-- The completion of a frame whose bytes can be read. -/
theorem completeFrame_ok {c : Config} {k : Codec} {mt cls code : Byte} {p : Bytes} (hmt : bufRead c 0 k.rxBuf = .ok mt)
    (hcls : bufRead c 2 k.rxBuf = .ok cls) (hcode : bufRead c 3 k.rxBuf = .ok code)
    (hp : bufReadN c k.rxBuf hdrLen k.rxLen.toNat = .ok p) :
    completeFrame c k = .ok (if cls = c.classId then dispatch c mt code p else ⟨.ok, .none⟩,
      { k with busy := busyAfterFrame mt k.busy, rxOff := 0 }) := by
  simp [completeFrame, hmt, hcls, hcode, hp]

/-- A completion that ended read the frame's bytes. -/
theorem completeFrame_eq_ok {c : Config} {k : Codec} {x : Result × Codec} (h : completeFrame c k = .ok x) :
    ∃ mt cls code p, bufRead c 0 k.rxBuf = .ok mt ∧ bufRead c 2 k.rxBuf = .ok cls ∧ bufRead c 3 k.rxBuf = .ok code ∧
      bufReadN c k.rxBuf hdrLen k.rxLen.toNat = .ok p ∧
      x = (if cls = c.classId then dispatch c mt code p else ⟨.ok, .none⟩,
        { k with busy := busyAfterFrame mt k.busy, rxOff := 0 }) := by
  unfold completeFrame at h
  split at h <;> simp_all

/-! ## `FEED`, everything it can do -/

/-- Everything a `FEED` that ends can have done. -/
inductive FeedCase (c : Config) (b : Byte) (k : Codec) (r : Result) (k' : Codec) : Prop
  /-- A first byte was rejected. -/
  | rejected (h0 : k.rxOff = 0) (hb : b.extractLsb' 0 7 ≠ 0) (hr : r = ⟨.errFraming b, .none⟩) (hk : k' = k)
  /-- The byte was stored, and the frame goes on. -/
  | stored (hcap : k.rxOff < c.bufCap) (h0 : k.rxOff = 0 → b.extractLsb' 0 7 = 0)
      (h1 : k.rxOff = 1 → b.toNat ≤ c.maxPayload) (hn : ¬ (3 ≤ k.rxOff ∧ k.rxOff + 1 = k.rxLen.toNat + hdrLen))
      (hr : r = ⟨.ok, .none⟩) (hk : k' = k.store b)
  /-- A length byte was rejected. -/
  | illegal (h1 : k.rxOff = 1) (hb : c.maxPayload < b.toNat) (hr : r = ⟨.errLength b, .none⟩)
      (hk : k' = { k with rxBuf := k.rxBuf.write 1 b, rxLen := b, rxOff := 0 })
  /-- The byte completed a frame. -/
  | completed (hcap : k.rxOff < c.bufCap) (h3 : 3 ≤ k.rxOff) (he : k.rxOff + 1 = k.rxLen.toNat + hdrLen)
      (hx : completeFrame c (k.store b) = .ok (r, k'))

/-- The inversion of `FEED`. -/
theorem feedByte_cases {c : Config} {b : Byte} {k : Codec} {r : Result} {k' : Codec}
    (h : feedByte c b k = .ok (r, k')) : FeedCase c b k r k' := by
  by_cases h0 : k.rxOff = 0
  · by_cases hb : b.extractLsb' 0 7 = 0
    · by_cases hcap : k.rxOff < c.bufCap
      · have h1 : k.rxOff = 1 → b.toNat ≤ c.maxPayload := by omega
        have hn : ¬ (3 ≤ k.rxOff ∧ k.rxOff + 1 = k.rxLen.toNat + hdrLen) := by omega
        rw [feedByte_stored hcap (fun _ => hb) h1 hn] at h
        simp only [Except.ok.injEq, Prod.mk.injEq] at h
        exact .stored hcap (fun _ => hb) h1 hn h.1.symm h.2.symm
      · simp [feedByte, h0, feedFirst, hb, bufWrite, show ¬ 0 < c.bufCap by omega] at h
    · rw [feedByte_rejected h0 hb] at h
      simp only [Except.ok.injEq, Prod.mk.injEq] at h
      exact .rejected h0 hb h.1.symm h.2.symm
  · by_cases hcap : k.rxOff < c.bufCap
    · by_cases he : 3 ≤ k.rxOff ∧ k.rxOff + 1 = k.rxLen.toNat + hdrLen
      · rw [feedByte_completing hcap he.1 he.2] at h
        exact .completed hcap he.1 he.2 h
      · by_cases h1 : k.rxOff = 1 ∧ c.maxPayload < b.toNat
        · rw [feedByte_illegal (by omega) h1.1 h1.2] at h
          simp only [Except.ok.injEq, Prod.mk.injEq] at h
          exact .illegal h1.1 h1.2 h.1.symm h.2.symm
        · have h1' : k.rxOff = 1 → b.toNat ≤ c.maxPayload := by omega
          rw [feedByte_stored hcap (fun e => absurd e h0) h1' he] at h
          simp only [Except.ok.injEq, Prod.mk.injEq] at h
          exact .stored hcap (fun e => absurd e h0) h1' he h.1.symm h.2.symm
    · simp [feedByte, h0, feedLater, bufWrite, hcap] at h

/-! ## `FEED_CHUNK` -/

@[simp] theorem feedBytes_nil (c : Config) (k : Codec) : feedBytes c [] k = .ok ([], k) := rfl

/-- A chunk whose first byte ended. -/
theorem feedBytes_cons {c : Config} {b : Byte} {bs : Bytes} {k k' k'' : Codec} {r : Result} {rs : List Result}
    (h : feedByte c b k = .ok (r, k')) (hs : feedBytes c bs k' = .ok (rs, k'')) :
    feedBytes c (b :: bs) k = .ok (r :: rs, k'') := by simp [feedBytes, h, hs]

/-- A chunk that ended is a first byte and a rest that ended. -/
theorem feedBytes_cons_ok {c : Config} {b : Byte} {bs : Bytes} {k k'' : Codec} {rs : List Result}
    (h : feedBytes c (b :: bs) k = .ok (rs, k'')) :
    ∃ r k' rs', feedByte c b k = .ok (r, k') ∧ feedBytes c bs k' = .ok (rs', k'') ∧ rs = r :: rs' := by
  simp only [feedBytes] at h
  split at h
  · simp at h
  · next r k' h1 =>
    split at h
    · simp at h
    · next rs' k2 h2 =>
      simp only [Except.ok.injEq, Prod.mk.injEq] at h
      obtain ⟨rfl, rfl⟩ := h
      exact ⟨r, k', rs', h1, h2, rfl⟩

/-! ## The rows with a frame -/

/-- A command row of a request with a frame. -/
theorem transmitRow_some {cmd : CommandRequest} {p : Bytes} (s : State) (h : cmd.payload cfg = some p) :
    transmitRow cmd s = .next (afterTransmit cmd.name p s) := by
  simp [transmitRow, transmitOp_some s.codec (encodeRequest_some h), State.deliver, afterTransmit, frame, mtCommand]

/-- A command row of a request without one. -/
theorem transmitRow_none {cmd : CommandRequest} (s : State) (h : cmd.payload cfg = none) :
    transmitRow cmd s = .next { s with results := [⟨.invalidArgument cmd.name, .none⟩] } := by
  simp [transmitRow, transmitOp_none s.codec (encodeRequest_none h), State.deliver]

/-- A response or event row whose payload a frame can hold. -/
theorem receiveRow_fits {mt code : Byte} {p : Bytes} (s : State) (h : p.length ≤ cfg.maxPayload) :
    receiveRow mt code p s = finishAll s (feedBytes cfg (frame cfg mt code p) s.codec) := by
  simp [receiveRow, inboundFrame, h]

/-- A response or event row whose payload no frame can hold. -/
theorem receiveRow_overlong {mt code : Byte} {p : Bytes} (s : State) (h : cfg.maxPayload < p.length) :
    receiveRow mt code p s = .refused .notAFrame := by
  simp [receiveRow, inboundFrame, Nat.not_le.mpr h]

end Sys2Proof.Machine
end

