-- ==== Sys2Proof/Laws/PerInstr.lean ====
section
/-! SUPPORT. Laws made per instruction. `WireLength`: the frame of a row is four to 255 bytes long, its length byte counts its
payload, and its class is this protocol's (spec/30_encoding.md R60, R74). An operation row has no frame. -/

namespace Sys2Proof

/-- A request's payload is a legal payload (R102). -/
theorem payload_length_le {c : Config} (hc : c.Valid) {cmd : CommandRequest} {p : Bytes} (h : cmd.payload c = some p) :
    p.length ≤ c.maxPayload := by
  have h2 := hc.two_le_maxPayload
  have h16 := hc.uuidLen_le
  cases cmd
  case writeUuid u =>
    simp only [CommandRequest.payload, cmdUuid, Option.ite_none_right_eq_some, Option.some.injEq] at h
    obtain ⟨hl, rfl⟩ := h
    omega
  case sendDataBlocks t e r d =>
    simp only [CommandRequest.payload, cmdBlocks, Option.ite_none_right_eq_some, Option.some.injEq] at h
    obtain ⟨hl, rfl⟩ := h
    simp only [List.length_cons]; omega
  case respondDataRequest d =>
    simp only [CommandRequest.payload, cmdBytes, Option.ite_none_right_eq_some, Option.some.injEq] at h
    obtain ⟨hl, rfl⟩ := h
    exact hl
  all_goals
    obtain rfl := Option.some.inj h
    simp only [cmdNone, cmdBool, cmdU8, cmdI8, cmdU16le, le16, List.length_cons, List.length_nil]
    omega

end Sys2Proof

namespace Sys2Proof.Laws.WireLength

open Sys2Proof

/-- What the law says of a frame. -/
def Holds (f : Bytes) : Prop :=
  4 ≤ f.length ∧ f.length ≤ 255 ∧ f[2]? = some cfg.classId ∧ ∃ len : Byte, f[1]? = some len ∧ f.length = len.toNat + 4

/-- The law of an instruction. -/
def Statement (i : Instr) : Prop := ∀ f, Sys2Proof.encode i = some f → Holds f

theorem holds_frame (mt code : Byte) {p : Bytes} (h : p.length ≤ cfg.maxPayload) : Holds (frame cfg mt code p) := by
  refine ⟨by simp [frame], ?_, rfl, _, rfl, ?_⟩
  · have : cfg.maxPayload = 251 := rfl
    simp only [frame, List.length_cons]; omega
  · simp [frame, length_byte cfg_valid h]

/-- The law of a command row. -/
theorem request (cmd : CommandRequest) : ∀ f, encodeRequest cfg cmd = some f → Holds f := by
  intro f h
  simp only [encodeRequest, Option.map_eq_some_iff] at h
  obtain ⟨p, hp, rfl⟩ := h
  exact holds_frame _ _ (payload_length_le cfg_valid hp)

/-- The law of a response or event row. -/
theorem inbound (mt code : Byte) (p : Bytes) : ∀ f, inboundFrame cfg mt code p = some f → Holds f := by
  intro f h
  simp only [inboundFrame, Option.ite_none_right_eq_some, Option.some.injEq] at h
  obtain ⟨hl, rfl⟩ := h
  exact holds_frame _ _ hl

theorem reset (f : Bool) : Statement (.reset f) := request (.reset f)
theorem ping : Statement .ping := request .ping
theorem readBtAddress : Statement .readBtAddress := request .readBtAddress
theorem readVersion : Statement .readVersion := request .readVersion
theorem writeVersion (v : Byte) : Statement (.writeVersion v) := request (.writeVersion v)
theorem readLoudness : Statement .readLoudness := request .readLoudness
theorem writeLoudness (v : Byte) : Statement (.writeLoudness v) := request (.writeLoudness v)
theorem readMode : Statement .readMode := request .readMode
theorem writeMode (v : Byte) : Statement (.writeMode v) := request (.writeMode v)
theorem readUuid : Statement .readUuid := request .readUuid
theorem writeUuid (u : Bytes) : Statement (.writeUuid u) := request (.writeUuid u)
theorem readMajor : Statement .readMajor := request .readMajor
theorem writeMajor (v : Half) : Statement (.writeMajor v) := request (.writeMajor v)
theorem readMinor : Statement .readMinor := request .readMinor
theorem writeMinor (v : Half) : Statement (.writeMinor v) := request (.writeMinor v)
theorem readPower : Statement .readPower := request .readPower
theorem writePower (v : BitVec 8) : Statement (.writePower v) := request (.writePower v)
theorem readAdvEnabled : Statement .readAdvEnabled := request .readAdvEnabled
theorem writeAdvEnabled (f : Bool) : Statement (.writeAdvEnabled f) := request (.writeAdvEnabled f)
theorem readEventsEnabled : Statement .readEventsEnabled := request .readEventsEnabled
theorem writeEventsEnabled (f : Bool) : Statement (.writeEventsEnabled f) := request (.writeEventsEnabled f)
theorem readTargetSpeed : Statement .readTargetSpeed := request .readTargetSpeed
theorem readModelNumber : Statement .readModelNumber := request .readModelNumber
theorem readFirmwareVersion : Statement .readFirmwareVersion := request .readFirmwareVersion
theorem readCrashReport : Statement .readCrashReport := request .readCrashReport
theorem cancelDataBlocks : Statement .cancelDataBlocks := request .cancelDataBlocks
theorem sendDataBlocks (t e r : Byte) (d : Bytes) : Statement (.sendDataBlocks t e r d) := request (.sendDataBlocks t e r d)
theorem respondDataRequest (d : Bytes) : Statement (.respondDataRequest d) := request (.respondDataRequest d)
theorem beginSettingsUpdate : Statement .beginSettingsUpdate := request .beginSettingsUpdate
theorem endSettingsUpdate : Statement .endSettingsUpdate := request .endSettingsUpdate
theorem respReset (p : Bytes) : Statement (.respReset p) := inbound _ _ _
theorem respPing (p : Bytes) : Statement (.respPing p) := inbound _ _ _
theorem respReadBtAddress (p : Bytes) : Statement (.respReadBtAddress p) := inbound _ _ _
theorem respReadVersion (p : Bytes) : Statement (.respReadVersion p) := inbound _ _ _
theorem respWriteVersion (p : Bytes) : Statement (.respWriteVersion p) := inbound _ _ _
theorem respReadLoudness (p : Bytes) : Statement (.respReadLoudness p) := inbound _ _ _
theorem respWriteLoudness (p : Bytes) : Statement (.respWriteLoudness p) := inbound _ _ _
theorem respReadMode (p : Bytes) : Statement (.respReadMode p) := inbound _ _ _
theorem respWriteMode (p : Bytes) : Statement (.respWriteMode p) := inbound _ _ _
theorem respReadUuid (p : Bytes) : Statement (.respReadUuid p) := inbound _ _ _
theorem respWriteUuid (p : Bytes) : Statement (.respWriteUuid p) := inbound _ _ _
theorem respReadMajor (p : Bytes) : Statement (.respReadMajor p) := inbound _ _ _
theorem respWriteMajor (p : Bytes) : Statement (.respWriteMajor p) := inbound _ _ _
theorem respReadMinor (p : Bytes) : Statement (.respReadMinor p) := inbound _ _ _
theorem respWriteMinor (p : Bytes) : Statement (.respWriteMinor p) := inbound _ _ _
theorem respReadPower (p : Bytes) : Statement (.respReadPower p) := inbound _ _ _
theorem respWritePower (p : Bytes) : Statement (.respWritePower p) := inbound _ _ _
theorem respReadAdvEnabled (p : Bytes) : Statement (.respReadAdvEnabled p) := inbound _ _ _
theorem respWriteAdvEnabled (p : Bytes) : Statement (.respWriteAdvEnabled p) := inbound _ _ _
theorem respReadEventsEnabled (p : Bytes) : Statement (.respReadEventsEnabled p) := inbound _ _ _
theorem respWriteEventsEnabled (p : Bytes) : Statement (.respWriteEventsEnabled p) := inbound _ _ _
theorem respReadTargetSpeed (p : Bytes) : Statement (.respReadTargetSpeed p) := inbound _ _ _
theorem respReadModelNumber (p : Bytes) : Statement (.respReadModelNumber p) := inbound _ _ _
theorem respReadFirmwareVersion (p : Bytes) : Statement (.respReadFirmwareVersion p) := inbound _ _ _
theorem respReadCrashReport (p : Bytes) : Statement (.respReadCrashReport p) := inbound _ _ _
theorem respCancelDataBlocks (p : Bytes) : Statement (.respCancelDataBlocks p) := inbound _ _ _
theorem respSendDataBlocks (p : Bytes) : Statement (.respSendDataBlocks p) := inbound _ _ _
theorem respRespondDataRequest (p : Bytes) : Statement (.respRespondDataRequest p) := inbound _ _ _
theorem respBeginSettingsUpdate (p : Bytes) : Statement (.respBeginSettingsUpdate p) := inbound _ _ _
theorem respEndSettingsUpdate (p : Bytes) : Statement (.respEndSettingsUpdate p) := inbound _ _ _
theorem evtConnect (p : Bytes) : Statement (.evtConnect p) := inbound _ _ _
theorem evtDisconnect (p : Bytes) : Statement (.evtDisconnect p) := inbound _ _ _
theorem evtDebug (p : Bytes) : Statement (.evtDebug p) := inbound _ _ _
theorem evtAuthSucceeded (p : Bytes) : Statement (.evtAuthSucceeded p) := inbound _ _ _
theorem evtAuthFailed (p : Bytes) : Statement (.evtAuthFailed p) := inbound _ _ _
theorem evtError (p : Bytes) : Statement (.evtError p) := inbound _ _ _
theorem evtSettingsSaved (p : Bytes) : Statement (.evtSettingsSaved p) := inbound _ _ _
theorem evtDataRequest (p : Bytes) : Statement (.evtDataRequest p) := inbound _ _ _
theorem evtDataBlocksSent (p : Bytes) : Statement (.evtDataBlocksSent p) := inbound _ _ _
theorem evtDataIndicated (p : Bytes) : Statement (.evtDataIndicated p) := inbound _ _ _
theorem encode (cmd : CommandRequest) : Statement (.encode cmd) := nofun
theorem transmit (cmd : CommandRequest) : Statement (.transmit cmd) := nofun
theorem feed (b : Byte) : Statement (.feed b) := nofun
theorem feedChunk (bs : Bytes) : Statement (.feedChunk bs) := nofun
theorem resync : Statement (.resync) := nofun
theorem opReset : Statement (.opReset) := nofun

end Sys2Proof.Laws.WireLength
end

