-- ==== Sys2Proof/Tests/Slice0.lean ====
section
/-! SUPPORT. Tests of the model against spec/95_test_vectors.md and the spec's encodings, and, for every statement of
Certificates/Slice0/Obligations.lean that has hypotheses, a named witness that meets them. -/

namespace Sys2Proof.Tests

open Sys2Proof Sys2Proof.Machine

/-! ## Helpers -/

/-- The next state of an outcome, if it is one. -/
def nextOf : Host.Outcome State Fault Refusal → Option State
  | .next t => some t
  | .fault _ => none
  | .refused _ => none

/-- A new codec with a command outstanding. -/
def outstanding : State := { State.reset with codec := { Codec.reset with busy := true } }

/-- The bytes 0x10 to 0x1F of vectors E12 and F9. -/
def uuid : Bytes :=
  [0x10, 0x11, 0x12, 0x13, 0x14, 0x15, 0x16, 0x17] ++ [0x18, 0x19, 0x1A, 0x1B, 0x1C, 0x1D, 0x1E, 0x1F]

/-- `n` zero bytes. -/
def zeros (n : Nat) : Bytes := List.replicate n 0

/-- There are `n` of them. -/
@[simp] theorem zeros_length (n : Nat) : (zeros n).length = n := List.length_replicate

/-- A parser that has taken the bytes `p` of a frame with `rx_len` as given. -/
def midFrame (p : Bytes) (len : Byte) (busy : Bool) : State :=
  { State.reset with codec := { Codec.reset with
      rxBuf := p.zipIdx.map fun x => (x.2, x.1)
      rxOff := p.length
      rxLen := len
      busy := busy } }

/-- The frame decodes to the command row, and the row puts that frame on the output log and sets `busy`. -/
abbrev Encoded (i : Instr) (f : Bytes) : Prop :=
  decode .hostToDevice f = .ok i ∧
    (nextOf (exec i State.reset)).map (fun t => (t.codec.txLog, t.codec.busy)) = some ([f], true)

/-- The frame decodes to the row, and the row, with a command outstanding, ends with this record and this `busy`. -/
abbrev Heard (i : Instr) (f : Bytes) (k : Kind) (v : Value) (busy : Bool) : Prop :=
  decode .deviceToHost f = .ok i ∧
    (nextOf (exec i outstanding)).map (fun t => (t.results.getLast?, t.codec.rxOff, t.codec.busy)) =
      some (some ⟨.ok, .record ⟨k, v⟩⟩, 0, busy)

/-- What one operation returns and where it leaves `rx_off` and `busy`. -/
def ran (i : Instr) (s : State) : Option (List Result × Nat × Bool) :=
  (nextOf (exec i s)).map fun t => (t.results, t.codec.rxOff, t.codec.busy)

/-! ## Well-formedness: one ill-formed term for each check -/

theorem test_wf_uuid : (Instr.writeUuid (uuid.take 15)).wellFormed cfg = false ∧
    (Instr.writeUuid (uuid ++ [0])).wellFormed cfg = false ∧ (Instr.writeUuid uuid).wellFormed cfg = true := by decide
set_option maxRecDepth 4000 in
theorem test_wf_blocks : (Instr.sendDataBlocks 1 2 3 (zeros 249)).wellFormed cfg = false ∧
    (Instr.sendDataBlocks 1 2 3 (zeros 248)).wellFormed cfg = true := by decide
set_option maxRecDepth 4000 in
theorem test_wf_data : (Instr.respondDataRequest (zeros 252)).wellFormed cfg = false ∧
    (Instr.respondDataRequest (zeros 251)).wellFormed cfg = true := by decide
set_option maxRecDepth 4000 in
theorem test_wf_response : (Instr.respReadVersion (zeros 252)).wellFormed cfg = false ∧
    (Instr.respReadVersion (zeros 251)).wellFormed cfg = true := by decide
set_option maxRecDepth 4000 in
theorem test_wf_event : (Instr.evtDebug (zeros 252)).wellFormed cfg = false ∧
    (Instr.evtDebug (zeros 251)).wellFormed cfg = true := by decide

/-! ## The command rows (95_test_vectors, section 2) -/

/-- E1. -/
theorem test_reset : Encoded (.reset true) [0x00, 0x01, 0xBC, 0x00, 0x01] := by decide
/-- E3. -/
theorem test_ping : Encoded .ping [0x00, 0x00, 0xBC, 0x01] := by decide
/-- E4. -/
theorem test_readBtAddress : Encoded .readBtAddress [0x00, 0x00, 0xBC, 0x02] := by decide
/-- E5. -/
theorem test_readVersion : Encoded .readVersion [0x00, 0x00, 0xBC, 0x03] := by decide
/-- E6. -/
theorem test_writeVersion : Encoded (.writeVersion 2) [0x00, 0x01, 0xBC, 0x04, 0x02] := by decide
/-- E7. -/
theorem test_readLoudness : Encoded .readLoudness [0x00, 0x00, 0xBC, 0x05] := by decide
/-- E8. -/
theorem test_writeLoudness : Encoded (.writeLoudness 200) [0x00, 0x01, 0xBC, 0x06, 0xC8] := by decide
/-- E9. -/
theorem test_readMode : Encoded .readMode [0x00, 0x00, 0xBC, 0x07] := by decide
/-- E10. -/
theorem test_writeMode : Encoded (.writeMode 1) [0x00, 0x01, 0xBC, 0x08, 0x01] := by decide
/-- E11. -/
theorem test_readUuid : Encoded .readUuid [0x00, 0x00, 0xBC, 0x09] := by decide
/-- E12. -/
theorem test_writeUuid : Encoded (.writeUuid uuid) ([0x00, 0x10, 0xBC, 0x0A] ++ uuid) := by decide
/-- E15. -/
theorem test_readMajor : Encoded .readMajor [0x00, 0x00, 0xBC, 0x0B] := by decide
/-- E16, S-a. -/
theorem test_writeMajor : Encoded (.writeMajor 0x0102) [0x00, 0x02, 0xBC, 0x0C, 0x02, 0x01] := by decide
/-- E21. -/
theorem test_readMinor : Encoded .readMinor [0x00, 0x00, 0xBC, 0x0D] := by decide
/-- E22. -/
theorem test_writeMinor : Encoded (.writeMinor 0xFFFE) [0x00, 0x02, 0xBC, 0x0E, 0xFE, 0xFF] := by decide
/-- E23. -/
theorem test_readPower : Encoded .readPower [0x00, 0x00, 0xBC, 0x0F] := by decide
/-- E24, S-d. -/
theorem test_writePower : Encoded (.writePower (BitVec.ofInt 8 (-10))) [0x00, 0x01, 0xBC, 0x10, 0xF6] := by decide
/-- E29. -/
theorem test_readAdvEnabled : Encoded .readAdvEnabled [0x00, 0x00, 0xBC, 0x11] := by decide
/-- E30. -/
theorem test_writeAdvEnabled : Encoded (.writeAdvEnabled true) [0x00, 0x01, 0xBC, 0x12, 0x01] := by decide
/-- E31. -/
theorem test_readEventsEnabled : Encoded .readEventsEnabled [0x00, 0x00, 0xBC, 0x13] := by decide
/-- E32. -/
theorem test_writeEventsEnabled : Encoded (.writeEventsEnabled false) [0x00, 0x01, 0xBC, 0x14, 0x00] := by decide
/-- E33. -/
theorem test_readTargetSpeed : Encoded .readTargetSpeed [0x00, 0x00, 0xBC, 0x15] := by decide
/-- E34. -/
theorem test_readModelNumber : Encoded .readModelNumber [0x00, 0x00, 0xBC, 0x16] := by decide
/-- E35. -/
theorem test_readFirmwareVersion : Encoded .readFirmwareVersion [0x00, 0x00, 0xBC, 0x17] := by decide
/-- E36. -/
theorem test_readCrashReport : Encoded .readCrashReport [0x00, 0x00, 0xBC, 0x18] := by decide
/-- E37. -/
theorem test_cancelDataBlocks : Encoded .cancelDataBlocks [0x00, 0x00, 0xBC, 0x19] := by decide
/-- E38. -/
theorem test_sendDataBlocks :
    Encoded (.sendDataBlocks 1 2 3 [0xAA, 0xBB]) [0x00, 0x05, 0xBC, 0x1A, 0x01, 0x02, 0x03, 0xAA, 0xBB] := by decide
/-- E42. -/
theorem test_respondDataRequest :
    Encoded (.respondDataRequest [0xDE, 0xAD]) [0x00, 0x02, 0xBC, 0x1B, 0xDE, 0xAD] := by decide
/-- E46. -/
theorem test_beginSettingsUpdate : Encoded .beginSettingsUpdate [0x00, 0x00, 0xBC, 0x1C] := by decide
/-- E47. -/
theorem test_endSettingsUpdate : Encoded .endSettingsUpdate [0x00, 0x00, 0xBC, 0x1D] := by decide

/-! ## The response rows (95_test_vectors, sections 1 and 3.3) -/

/-- F1. -/
theorem test_respReset :
    Heard (.respReset [0x00]) [0x00, 0x01, 0xBC, 0x00, 0x00]
      (.resp .reset) (.respCode 0x00) false := by decide
/-- F2. -/
theorem test_respPing :
    Heard (.respPing [0x01, 0x02, 0x03, 0x04, 0x05]) [0x00, 0x05, 0xBC, 0x01, 0x01, 0x02, 0x03, 0x04, 0x05]
      (.resp .ping) (.raw [1, 2, 3, 4, 5]) false := by decide
/-- F4. -/
theorem test_respReadBtAddress :
    Heard (.respReadBtAddress [0x00, 0x1A, 0x2B, 0x3C, 0x4D, 0x5E])
      [0x00, 0x06, 0xBC, 0x02, 0x00, 0x1A, 0x2B, 0x3C, 0x4D, 0x5E]
      (.resp .readBtAddress) (.text ['0', '0', '1', 'A', '2', 'B', '3', 'C', '4', 'D', '5', 'E']) false := by decide
/-- F5. -/
theorem test_respReadVersion :
    Heard (.respReadVersion [0x01, 0x04]) [0x00, 0x02, 0xBC, 0x03, 0x01, 0x04]
      (.resp .readVersion) (.raw [1, 4]) false := by decide
/-- R184. -/
theorem test_respWriteVersion :
    Heard (.respWriteVersion [0x00]) [0x00, 0x01, 0xBC, 0x04, 0x00]
      (.resp .writeVersion) (.respCode 0x00) false := by decide
/-- F7. -/
theorem test_respReadLoudness :
    Heard (.respReadLoudness [0xC8]) [0x00, 0x01, 0xBC, 0x05, 0xC8]
      (.resp .readLoudness) (.u8 200) false := by decide
/-- R186. -/
theorem test_respWriteLoudness :
    Heard (.respWriteLoudness [0x01]) [0x00, 0x01, 0xBC, 0x06, 0x01]
      (.resp .writeLoudness) (.respCode 0x01) false := by decide
/-- F8. -/
theorem test_respReadMode :
    Heard (.respReadMode [0x01]) [0x00, 0x01, 0xBC, 0x07, 0x01]
      (.resp .readMode) (.u8 1) false := by decide
/-- R188. -/
theorem test_respWriteMode :
    Heard (.respWriteMode [0x02]) [0x00, 0x01, 0xBC, 0x08, 0x02]
      (.resp .writeMode) (.respCode 0x02) false := by decide
/-- F9. -/
theorem test_respReadUuid :
    Heard (.respReadUuid uuid) ([0x00, 0x10, 0xBC, 0x09] ++ uuid)
      (.resp .readUuid) (.uuid uuid) false := by decide
/-- R190. -/
theorem test_respWriteUuid :
    Heard (.respWriteUuid [0x03]) [0x00, 0x01, 0xBC, 0x0A, 0x03]
      (.resp .writeUuid) (.respCode 0x03) false := by decide
/-- S-b, program 2. -/
theorem test_respReadMajor :
    Heard (.respReadMajor [0x01, 0x02, 0xAA, 0xBB, 0xCC, 0xDD])
      [0x00, 0x06, 0xBC, 0x0B, 0x01, 0x02, 0xAA, 0xBB, 0xCC, 0xDD]
      (.resp .readMajor) (.u16 0x0102) false := by decide
/-- F15. -/
theorem test_respWriteMajor :
    Heard (.respWriteMajor [0x02, 0x01]) [0x00, 0x02, 0xBC, 0x0C, 0x02, 0x01]
      (.resp .writeMajor) (.respCode 0x02) false := by decide
/-- F16. -/
theorem test_respReadMinor :
    Heard (.respReadMinor [0xFF, 0xFE]) [0x00, 0x02, 0xBC, 0x0D, 0xFF, 0xFE]
      (.resp .readMinor) (.u16 0xFFFE) false := by decide
/-- R194. -/
theorem test_respWriteMinor :
    Heard (.respWriteMinor [0x04]) [0x00, 0x01, 0xBC, 0x0E, 0x04]
      (.resp .writeMinor) (.respCode 0x04) false := by decide
/-- F17. -/
theorem test_respReadPower :
    Heard (.respReadPower [0xF6]) [0x00, 0x01, 0xBC, 0x0F, 0xF6]
      (.resp .readPower) (.i8 (-10)) false := by decide
/-- program 4. -/
theorem test_respWritePower :
    Heard (.respWritePower [0x00]) [0x00, 0x01, 0xBC, 0x10, 0x00]
      (.resp .writePower) (.respCode 0x00) false := by decide
/-- F20. -/
theorem test_respReadAdvEnabled :
    Heard (.respReadAdvEnabled [0x02]) [0x00, 0x01, 0xBC, 0x11, 0x02]
      (.resp .readAdvEnabled) (.bool true) false := by decide
/-- R198. -/
theorem test_respWriteAdvEnabled :
    Heard (.respWriteAdvEnabled [0x06]) [0x00, 0x01, 0xBC, 0x12, 0x06]
      (.resp .writeAdvEnabled) (.respCode 0x06) false := by decide
/-- F21. -/
theorem test_respReadEventsEnabled :
    Heard (.respReadEventsEnabled [0x00]) [0x00, 0x01, 0xBC, 0x13, 0x00]
      (.resp .readEventsEnabled) (.bool false) false := by decide
/-- R200. -/
theorem test_respWriteEventsEnabled :
    Heard (.respWriteEventsEnabled [0x07]) [0x00, 0x01, 0xBC, 0x14, 0x07]
      (.resp .writeEventsEnabled) (.respCode 0x07) false := by decide
/-- F22. -/
theorem test_respReadTargetSpeed :
    Heard (.respReadTargetSpeed [0x03]) [0x00, 0x01, 0xBC, 0x15, 0x03]
      (.resp .readTargetSpeed) (.raw [3]) false := by decide
/-- F23. -/
theorem test_respReadModelNumber :
    Heard (.respReadModelNumber [0x01, 0x04]) [0x00, 0x02, 0xBC, 0x16, 0x01, 0x04]
      (.resp .readModelNumber) (.text ['B', 'C', '0', '1', '0', '-', '4']) false := by decide
/-- F24. -/
theorem test_respReadFirmwareVersion :
    Heard (.respReadFirmwareVersion [0x01, 0x04]) [0x00, 0x02, 0xBC, 0x17, 0x01, 0x04]
      (.resp .readFirmwareVersion) (.text ['1', '.', '0', '.', '4']) false := by decide
/-- F25. -/
theorem test_respReadCrashReport :
    Heard (.respReadCrashReport [0xDE, 0xAD, 0x01]) [0x00, 0x03, 0xBC, 0x18, 0xDE, 0xAD, 0x01]
      (.resp .readCrashReport) (.raw [0xDE, 0xAD, 0x01]) false := by decide
/-- R205. -/
theorem test_respCancelDataBlocks :
    Heard (.respCancelDataBlocks [0x08]) [0x00, 0x01, 0xBC, 0x19, 0x08]
      (.resp .cancelDataBlocks) (.respCode 0x08) false := by decide
/-- F26. -/
theorem test_respSendDataBlocks :
    Heard (.respSendDataBlocks [0x00]) [0x00, 0x01, 0xBC, 0x1A, 0x00]
      (.resp .sendDataBlocks) (.respCode 0x00) false := by decide
/-- R207. -/
theorem test_respRespondDataRequest :
    Heard (.respRespondDataRequest [0x09]) [0x00, 0x01, 0xBC, 0x1B, 0x09]
      (.resp .respondDataRequest) (.respCode 0x09) false := by decide
/-- R208. -/
theorem test_respBeginSettingsUpdate :
    Heard (.respBeginSettingsUpdate [0xFF]) [0x00, 0x01, 0xBC, 0x1C, 0xFF]
      (.resp .beginSettingsUpdate) (.respCode 0xFF) false := by decide
/-- F27. -/
theorem test_respEndSettingsUpdate :
    Heard (.respEndSettingsUpdate [0x05]) [0x00, 0x01, 0xBC, 0x1D, 0x05]
      (.resp .endSettingsUpdate) (.respCode 0x05) false := by decide

/-! ## The event rows (95_test_vectors, sections 1 and 3.3) -/

/-- S-e, F30. -/
theorem test_evtConnect :
    Heard (.evtConnect []) [0x80, 0x00, 0xBC, 0x01] (.evt .connect) (.raw []) true := by decide
/-- F31. -/
theorem test_evtDisconnect :
    Heard (.evtDisconnect []) [0x80, 0x00, 0xBC, 0x02] (.evt .disconnect) (.raw []) true := by decide
/-- F32. -/
theorem test_evtDebug :
    Heard (.evtDebug [0x68, 0x69])
      [0x80, 0x02, 0xBC, 0x03, 0x68, 0x69] (.evt .debug) (.raw [0x68, 0x69]) true := by decide
/-- R223. -/
theorem test_evtAuthSucceeded :
    Heard (.evtAuthSucceeded []) [0x80, 0x00, 0xBC, 0x04] (.evt .authSucceeded) (.raw []) true := by decide
/-- R224. -/
theorem test_evtAuthFailed :
    Heard (.evtAuthFailed [0x01]) [0x80, 0x01, 0xBC, 0x05, 0x01] (.evt .authFailed) (.raw [1]) true := by decide
/-- F33. -/
theorem test_evtError :
    Heard (.evtError [0x07]) [0x80, 0x01, 0xBC, 0x06, 0x07] (.evt .error) (.u8 7) true := by decide
/-- R226. -/
theorem test_evtSettingsSaved :
    Heard (.evtSettingsSaved []) [0x80, 0x00, 0xBC, 0x07] (.evt .settingsSaved) (.raw []) true := by decide
/-- F35. -/
theorem test_evtDataRequest :
    Heard (.evtDataRequest [0x01, 0x02, 0x03])
      [0x80, 0x03, 0xBC, 0x08, 0x01, 0x02, 0x03] (.evt .dataRequest) (.raw [1, 2, 3]) true := by decide
/-- R228. -/
theorem test_evtDataBlocksSent :
    Heard (.evtDataBlocksSent [0x00]) [0x80, 0x01, 0xBC, 0x09, 0x00] (.evt .dataBlocksSent) (.raw [0]) true := by decide
/-- R229. -/
theorem test_evtDataIndicated :
    Heard (.evtDataIndicated [0x80, 0xFF])
      [0x80, 0x02, 0xBC, 0x0A, 0x80, 0xFF] (.evt .dataIndicated) (.raw [0x80, 0xFF]) true := by decide

/-! ## The operations (95_test_vectors, sections 2, 3.3, 3.4 and 4) -/

/-- E13. -/
theorem test_encode_short_uuid : ran (.encode (.writeUuid (uuid.take 15))) State.reset =
    some ([⟨.invalidArgument .writeUuid, .none⟩], 0, false) := by decide
/-- S-a: `ENCODE` returns the frame and sets nothing. -/
theorem test_encode_major : ran (.encode (.writeMajor 0x0102)) State.reset =
    some ([⟨.ok, .frame [0x00, 0x02, 0xBC, 0x0C, 0x02, 0x01]⟩], 0, false) := by decide
/-- T1, T2: a second command is not refused while the first is outstanding. -/
theorem test_transmit_while_busy : (nextOf (exec (.transmit .readMinor)
      { outstanding with codec := { outstanding.codec with txLog := [[0x00, 0x00, 0xBC, 0x0B]] } })).map
      (fun t => (t.codec.txLog, t.codec.busy)) =
    some ([[0x00, 0x00, 0xBC, 0x0B], [0x00, 0x00, 0xBC, 0x0D]], true) := by decide
/-- T3. -/
theorem test_transmit_illegal : (nextOf (exec (.transmit (.writeUuid [1, 2, 3])) State.reset)).map
    (fun t => (t.codec, t.results)) = some (Codec.reset, [⟨.invalidArgument .writeUuid, .none⟩]) := by decide
/-- B1 to B4. -/
theorem test_feed_noise : ∀ b ∈ ([0x01, 0x7F, 0xFF, 0xBC, 0x81] : Bytes),
    nextOf (exec (.feed b) outstanding) = some { outstanding with results := [⟨.errFraming b, .none⟩] } := by decide
/-- B7 to B10. -/
theorem test_feed_length_byte :
    ran (.feed 0xFB) (midFrame [0x00] 0 true) = some ([⟨.ok, .none⟩], 2, true) ∧
    ran (.feed 0xFC) (midFrame [0x00] 0 true) = some ([⟨.errLength 0xFC, .none⟩], 0, true) ∧
    ran (.feed 0xFF) (midFrame [0x80] 0 false) = some ([⟨.errLength 0xFF, .none⟩], 0, false) ∧
    ran (.feed 0x81) (midFrame [0x00] 0 false) = some ([⟨.ok, .none⟩], 2, false) := by decide
/-- Program 3, the foreign frame: no record, and `busy` is cleared. -/
theorem test_feedChunk_foreign : ran (.feedChunk [0x00, 0x00, 0x55, 0x0B]) outstanding =
    some ([⟨.ok, .none⟩, ⟨.ok, .none⟩, ⟨.ok, .none⟩, ⟨.ok, .none⟩], 0, false) := by decide
/-- Program 5 (b): an event's first byte completes a truncated response, and the rest starts a false frame. -/
theorem test_feedChunk_truncated :
    (nextOf (exec (.feedChunk [0x80, 0x00, 0xBC, 0x02]) (midFrame [0x00, 0x02, 0xBC, 0x0B, 0x01] 2 true))).map
      (fun t => (t.results, t.codec.rxOff, t.codec.rxLen, t.codec.busy)) =
    some ([⟨.ok, .record ⟨.resp .readMajor, .u16 0x0180⟩⟩, ⟨.ok, .none⟩, ⟨.ok, .none⟩, ⟨.ok, .none⟩], 3, 188, false) := by
  decide
/-- F14, F28, F37, F38: a short response, and codes that no table has. -/
theorem test_dispatch_without_a_record :
    dispatch cfg 0x00 0x0B [] = ⟨.errMalformed (.resp .readMajor) 0, .none⟩ ∧
    dispatch cfg 0x00 0x1E [] = ⟨.ok, .none⟩ ∧ dispatch cfg 0x80 0x00 [] = ⟨.ok, .none⟩ ∧
    dispatch cfg 0x80 0x0B [] = ⟨.ok, .none⟩ := by decide
/-- F3, F13, F34: a payload one byte short. -/
theorem test_short_payloads :
    (ran (.respPing [1, 2, 3, 4]) outstanding).map (fun x => (x.1.getLast?, x.2)) =
      some (some ⟨.errMalformed (.resp .ping) 4, .none⟩, 0, false) ∧
    (ran (.evtError []) outstanding).map (fun x => (x.1.getLast?, x.2)) =
      some (some ⟨.errMalformed (.evt .error) 0, .none⟩, 0, true) := by decide
/-- B12. -/
theorem test_resync : ran .resync (midFrame [0x00, 0x06, 0xBC, 0x0B, 0x01] 6 true) = some ([⟨.ok, .none⟩], 0, true) := by
  decide
/-- B13. -/
theorem test_opReset : (nextOf (exec .opReset (midFrame [0x00, 0x06, 0xBC] 6 true))).map (·.codec) = some Codec.reset := by
  decide
/-- V-P4, V-P5. -/
theorem test_power_boundary : sext8 cfg 0x7F = 127 ∧ sext8 cfg 0x80 = -128 := by decide
/-- V-S2 to V-S5. -/
theorem test_texts :
    modelString [0xAB, 0xCD] = ['B', 'C', 'A', 'B', 'C', '-', 'D'] ∧
    fwString [0x12, 0x34] = ['1', '.', '2', '.', '3', '.', '4'] ∧ fwString [0x00, 0x00] = ['0', '.', '0', '.', '0'] ∧
    fwString [0x00, 0x12] = ['0', '.', '1', '.', '2'] := by decide

/-! ## Decoding and fetching (30_encoding R66, the log's entry 4 for the bits above the header word) -/

/-- The bits of S-a's frame and of F33's, as the table numbers them. -/
theorem test_table_words :
    decodeTableWord 48 0x01020002BC0C = some (.writeMajor 0x0102) ∧
    decodeTableWord 32 0x0002BC0C = some (.writeMajor 0) ∧
    decodeTableWord 32 0x0001BC05 = some (.respReadLoudness [0]) ∧
    decodeTableWord 40 0x078001BC06 = some (.evtError [7]) ∧
    decodeTableWord 32 0x0000550B = none ∧ decodeTableWord 32 0x8000BC0B = none := by decide
/-- A word is run by the next step. -/
theorem test_step_runs_a_word : (nextOf (step (State.reset.withFetchWord 32 0x0000BC0B))).map (·.codec.txLog) =
    some [[0x00, 0x00, 0xBC, 0x0B]] := by decide
/-- Bytes that are no frame of a row: a noise byte reaches the parser, and is not sent. -/
theorem test_step_noise :
    (nextOf (step { State.reset with requests := [.wire .deviceToHost [0x81]] })).map (·.results) =
      some [⟨.errFraming 0x81, .none⟩] ∧
    nextOf (step { State.reset with requests := [.wire .hostToDevice [0x81]] }) = none := by decide

/-! ## Witnesses -/

/-- A state in the middle of a response meets the invariants. -/
theorem midFrame_inv : (midFrame [0x00, 0x02, 0xBC, 0x0B, 0x01] 2 true).Inv where
  rxOff_lt := by decide
  firstByte := by decide
  rxLen_stored := by decide
  rxLen_le := by decide
  incomplete := by decide
  stored := fun a h => by
    match a, h with
    | 0, _ | 1, _ | 2, _ | 3, _ | 4, _ => exact ⟨_, rfl⟩
  canonical := by decide
  inside := by decide
/-- One byte short of the header of an empty frame. -/
theorem midHeader_inv : (midFrame [0x80, 0x00, 0xBC] 0 true).Inv where
  rxOff_lt := by decide
  firstByte := by decide
  rxLen_stored := by decide
  rxLen_le := by decide
  incomplete := by decide
  stored := fun a h => by
    match a, h with
    | 0, _ | 1, _ | 2, _ => exact ⟨_, rfl⟩
  canonical := by decide
  inside := by decide

theorem witness_StepRunsTheFetchedInstruction :
    decode .hostToDevice [0x00, 0x00, 0xBC, 0x0B] = .ok .readMajor ∧
    decode .deviceToHost [0x80, 0x00, 0xBC, 0x0B] = .error (.unrecognizedCode 0x0B) ∧
    decode .hostToDevice [0x80, 0x00, 0xBC, 0x01] = .error (.badMessageType 0x80) := by decide
theorem witness_TableWordRunsNext : decodeTableWord 32 0x8000BC01 = some (.evtConnect []) := by decide
theorem witness_DecodeOfEncodeIsTheInstruction : cfg.Valid ∧
    encodeWith cfg (.sendDataBlocks 1 2 3 [0xAA]) = some [0x00, 0x04, 0xBC, 0x1A, 0x01, 0x02, 0x03, 0xAA] ∧
    (Instr.sendDataBlocks 1 2 3 [0xAA]).direction = some .hostToDevice ∧
    encodeWith cfg (.evtError [7]) = some [0x80, 0x01, 0xBC, 0x06, 0x07] ∧
    (Instr.evtError [7]).direction = some .deviceToHost := ⟨cfg_valid, by decide⟩
theorem witness_EncodeOfDecodeIsTheFrame :
    decodeWith cfg .hostToDevice [0x00, 0x02, 0xBC, 0x0C, 0xFF, 0x00] = .ok (.writeMajor 0x00FF) ∧
    decodeWith cfg .deviceToHost [0x00, 0x02, 0xBC, 0x0C, 0xFF, 0x00] = .ok (.respWriteMajor [0xFF, 0x00]) := by decide
theorem witness_EncodeIsInjectiveOnRequests : cfg.Valid ∧
    encodeRequest cfg (.writeMinor 42) = some [0x00, 0x02, 0xBC, 0x0E, 0x2A, 0x00] := ⟨cfg_valid, by decide⟩
theorem witness_EncodedFramesHaveTheirHeader : cfg.Valid ∧
    encodeRequest cfg (.respondDataRequest []) = some [0x00, 0x00, 0xBC, 0x1B] := ⟨cfg_valid, by decide⟩
set_option maxRecDepth 4000 in
theorem witness_EncodedFramesHaveTheirHeader_longest :
    (encodeRequest cfg (.respondDataRequest (zeros 251))).map List.length = some 255 := by decide
/-- Both sides of the need of a six-byte and of a one-byte format, and a code of neither table. -/
theorem witness_DispatchFollowsTheTables : cfg.Valid ∧
    (zeros 5).length < (respFormat .readBtAddress).need cfg ∧
    (respFormat .readBtAddress).need cfg ≤ (zeros 6).length ∧
    ([] : Bytes).length < (evtFormat .error).need cfg ∧ (evtFormat .error).need cfg ≤ ([0] : Bytes).length ∧
    (∀ m ∈ CmdName.all, cfg.cmdCode m ≠ 0x1E) ∧ (∀ m ∈ EvtName.all, cfg.evtCode m ≠ 0x0B) := ⟨cfg_valid, by decide⟩
theorem witness_DispatchFollowsTheTables_unrecognized :
    (∀ m, cfg.cmdCode m ≠ 0x1E) ∧ ∀ m, cfg.evtCode m ≠ 0x0B :=
  ⟨fun m => by cases m <;> decide, fun m => by cases m <;> decide⟩
/-- Byte 0x81 at a later offset is data (B10). -/
theorem witness_FirstByteIsCheckedThenStored_later : (midFrame [0x00] 0 true).codec.rxOff ≠ 0 ∧
    ran (.feed 0x81) (midFrame [0x00] 0 true) = some ([⟨.ok, .none⟩], 2, true) := by decide
theorem witness_FirstByteIsCheckedThenStored : State.reset.codec.rxOff = 0 ∧ (0x7F : Byte) &&& 0x7F ≠ 0 ∧
    (0x01 : Byte) &&& 0x7F ≠ 0 ∧ (0x80 : Byte) &&& 0x7F = 0 ∧ (0x00 : Byte) &&& 0x7F = 0 := by decide
/-- A byte that is an illegal length is appended too. -/
theorem witness_LaterBytesAreStoredUnexamined_appended : 1 ≤ (midFrame [0x00] 0 true).codec.rxOff ∧
    ran (.feed 0xFC) (midFrame [0x00] 0 true) = some ([⟨.errLength 0xFC, .none⟩], 0, true) := by decide
/-- The largest legal length byte; and the last payload byte but one. -/
theorem witness_LaterBytesAreStoredUnexamined :
    (1 ≤ (midFrame [0x00] 0 true).codec.rxOff ∧ (midFrame [0x00] 0 true).codec.rxOff < cfg.bufCap ∧
      (0xFB : Byte).toNat ≤ cfg.maxPayload ∧ ¬ 3 ≤ (midFrame [0x00] 0 true).codec.rxOff) ∧
    (let k := (midFrame [0x00, 0x02, 0xBC, 0x0B] 2 true).codec
     1 ≤ k.rxOff ∧ k.rxOff < cfg.bufCap ∧ k.rxOff ≠ 1 ∧ ¬ (3 ≤ k.rxOff ∧ k.rxOff + 1 = k.rxLen.toNat + 4)) := by decide
theorem witness_IllegalLengthByteAbandonsTheFrame :
    (midFrame [0x80] 0 true).codec.rxOff = 1 ∧ cfg.maxPayload < (0xFC : Byte).toNat := by decide
/-- The last byte of F11, and the last byte of the header of an empty frame. -/
theorem witness_CompletingByteDispatchesTheFrame :
    (let s := midFrame [0x00, 0x02, 0xBC, 0x0B, 0x01] 2 true
     3 ≤ s.codec.rxOff ∧ s.codec.rxOff + 1 = s.codec.rxLen.toNat + 4 ∧
     ([0x00, 0x02, 0xBC, 0x0B, 0x01] : Bytes).length = s.codec.rxOff ∧
     (∀ a, a < 5 → s.codec.rxBuf.read a = ([0x00, 0x02, 0xBC, 0x0B, 0x01] : Bytes)[a]?) ∧
     ([0x00, 0x02, 0xBC, 0x0B, 0x01] : Bytes) ++ [0x02] = [0x00, 0x02, 0xBC, 0x0B, 0x01, 0x02]) ∧
    (let s := midFrame [0x80, 0x00, 0xBC] 0 true
     3 ≤ s.codec.rxOff ∧ s.codec.rxOff + 1 = s.codec.rxLen.toNat + 4 ∧
     ([0x80, 0x00, 0xBC] : Bytes).length = s.codec.rxOff ∧
     (∀ a, a < 3 → s.codec.rxBuf.read a = ([0x80, 0x00, 0xBC] : Bytes)[a]?) ∧
     ([0x80, 0x00, 0xBC] : Bytes) ++ [0x01] = [0x80, 0x00, 0xBC, 0x01]) := by decide
theorem witness_CompletingByteDispatchesTheFrame_inv :
    (midFrame [0x00, 0x02, 0xBC, 0x0B, 0x01] 2 true).Inv ∧ (midFrame [0x80, 0x00, 0xBC] 0 true).Inv :=
  ⟨midFrame_inv, midHeader_inv⟩
/-- The shortest and the longest frame. -/
theorem witness_OneFrameIsConsumedWhole : cfg.Valid ∧ Codec.reset.rxOff = 0 ∧
    (([] : Bytes).length = (0 : Byte).toNat ∧ ([] : Bytes).length ≤ cfg.maxPayload) ∧
    ((zeros 251).length = (251 : Byte).toNat ∧
      (zeros 251).length ≤ cfg.maxPayload) := ⟨cfg_valid, rfl, by decide, zeros_length 251, (zeros_length 251).le⟩
theorem witness_FeedsCompleteFromTheInvariant : (midFrame [0x00, 0x02, 0xBC, 0x0B, 0x01] 2 true).Inv := midFrame_inv
theorem witness_FeedYieldsAtMostOneRecord :
    ran (.feed 0x01) (midFrame [0x80, 0x00, 0xBC] 0 true) =
      some ([⟨.ok, .record ⟨.evt .connect, .raw []⟩⟩], 0, true) := by decide
/-- The three ways to offset 0, and the one onwards. -/
theorem witness_FeedAdvancesTheOffsetByOneOrToZero :
    ran (.feed 0x81) State.reset = some ([⟨.errFraming 0x81, .none⟩], 0, false) ∧
    ran (.feed 0xFC) (midFrame [0x00] 0 true) = some ([⟨.errLength 0xFC, .none⟩], 0, true) ∧
    ran (.feed 0x0B) (midFrame [0x00, 0x00, 0x55] 0 true) = some ([⟨.ok, .none⟩], 0, false) ∧
    ran (.feed 0x55) (midFrame [0x00, 0x00] 0 true) = some ([⟨.ok, .none⟩], 3, true) := by decide
theorem witness_EveryStepKeepsTheInvariants :
    let s := { midFrame [0x00, 0x02, 0xBC, 0x0B, 0x01] 2 true with requests := [.call (.feed 0x02)] }
    s.Inv ∧ (nextOf (step s)).map (·.codec.rxOff) = some 0 := ⟨midFrame_inv, by decide⟩
theorem witness_NoStepFaultsFromTheInvariants : (midFrame [0x80, 0x00, 0xBC] 0 true).Inv := midHeader_inv
theorem witness_FeedKeepsTheInvariantsUnderEveryConfiguration :
    cfg.Valid ∧ (midFrame [0x80, 0x00, 0xBC] 0 true).codec.Inv cfg := ⟨cfg_valid, midHeader_inv⟩
/-- Two codecs that differ in a stale byte and a stale length. -/
theorem witness_StaleBytesAreUnobservable :
    let k := (midFrame [0x00] 7 true).codec
    k.SameVisible { k with rxBuf := [(0, 0x00), (9, 0xAA)], rxLen := 8 } ∧
    (nextOf (exec (.feed 0x00) { State.reset with codec := k })).isSome = true :=
  ⟨⟨rfl, rfl, rfl, by decide, by decide⟩, by decide⟩
theorem witness_OutputLogOnlyGrowsAndIsNeverRead :
    (nextOf (exec .ping State.reset)).isSome = true ∧ (Instr.ping ≠ .opReset) := by decide
/-- `busy` set by a transmission; cleared by a reset, and by the last byte of a Command frame. -/
theorem witness_OnlyTransmissionSetsBusy :
    ran .ping State.reset = some ([⟨.ok, .none⟩], 0, true) ∧ ran .opReset outstanding = some ([⟨.ok, .none⟩], 0, false) ∧
    ran (.feed 0x1E) (midFrame [0x00, 0x00, 0xBC] 0 true) = some ([⟨.ok, .none⟩], 0, false) := by decide
theorem witness_BusyIsNeverRead : (nextOf (exec (.evtConnect []) outstanding)).isSome = true := by decide
theorem witness_PowerBytesRoundTrip : (-128 : Int) ≤ -128 ∧ (-128 : Int) ≤ 127 ∧ (127 : Int) ≤ 127 := by decide
theorem witness_SixteenBitByteOrders : le16 0x0102 = [0x02, 0x01] ∧ le16 0x0101 = [0x01, 0x01] := by decide
theorem witness_TextRenderings :
    hex2 0x01 ++ hex2 0x04 = ['0', '1', '0', '4'] ∧ hex2 0x12 ++ hex2 0x34 = ['1', '2', '3', '4'] := by decide
theorem witness_RequestAndDecodeFormatsRoundTrip : cmdUuid cfg uuid = some uuid := by decide
theorem witness_EncodeReturnsTheFrame : CommandRequest.payload cfg (.writePower (BitVec.ofInt 8 (-128))) = some [0x80] ∧
    CommandRequest.payload cfg (.writeUuid (uuid ++ [0])) = none := by decide
theorem witness_TransmitEmitsAndSetsBusy : CommandRequest.payload cfg (.reset false) = some [0] ∧
    CommandRequest.payload cfg (.writeUuid []) = none := by decide
theorem witness_UuidIsTransmittedVerbatim : uuid.length = 16 ∧ (uuid.take 15).length ≠ 16 := by decide
theorem witness_DataIsTransmittedVerbatim :
    (zeros 248).length ≤ 248 ∧ 248 < (zeros 249).length ∧
    (zeros 251).length ≤ 251 ∧ 251 < (zeros 252).length := by simp
/-- For the statements whose frame is one byte or two and a rest: no rest, and the longest. -/
theorem witness_ResponseCodesAreDelivered : outstanding.codec.rxOff = 0 ∧ ([] : Bytes).length + 1 ≤ 251 ∧
    (zeros 250).length + 1 ≤ 251 := ⟨rfl, by simp⟩
theorem witness_ScalarResponsesAreDelivered : outstanding.codec.rxOff = 0 ∧ (zeros 250).length + 1 ≤ 251 :=
  ⟨rfl, by simp⟩
theorem witness_ErrorEventDeliversItsCode : outstanding.codec.rxOff = 0 ∧ ([] : Bytes).length ≤ 251 ∧
    (zeros 251).length ≤ 251 ∧ zeros 251 = 0 :: zeros 250 := ⟨rfl, by simp, by simp, rfl⟩
theorem witness_RawResponsesAreDeliveredWhole : outstanding.codec.rxOff = 0 ∧ ([] : Bytes).length ≤ 251 ∧
    (zeros 251).length ≤ 251 := ⟨rfl, by simp⟩
theorem witness_RawEventsAreDeliveredWhole : outstanding.codec.rxOff = 0 ∧ ([] : Bytes).length ≤ 251 ∧
    (zeros 251).length ≤ 251 := ⟨rfl, by simp⟩
theorem witness_FixedBlocksAreDelivered : outstanding.codec.rxOff = 0 ∧
    ([1, 2, 3, 4, 5] : Bytes).length = 5 ∧ ([1, 2, 3, 4, 5, 6] : Bytes).length = 6 ∧ uuid.length = 16 ∧
    (uuid ++ []).length ≤ 251 ∧ (([1, 2, 3, 4, 5] : Bytes) ++ [6]).length ≤ 251 := by decide
theorem witness_MajorAndMinorAreBigEndian : outstanding.codec.rxOff = 0 ∧ (zeros 251).length ≤ 251 ∧
    zeros 251 = 0 :: 0 :: zeros 249 ∧ ([0x01] : Bytes).length < 2 ∧ ([] : Bytes).length < 2 :=
  ⟨rfl, by simp, rfl, by simp, by simp⟩
theorem witness_ModelAndFirmwareTexts : outstanding.codec.rxOff = 0 ∧ ([] : Bytes).length + 2 ≤ 251 ∧
    hex2 0x00 ++ hex2 0x12 = ['0', '0', '1', '2'] := by decide
theorem witness_ShortPayloadsAreMalformed : outstanding.codec.rxOff = 0 ∧ ([] : Bytes).length < 1 ∧
    ([0x01] : Bytes).length < 2 ∧ ([1, 2, 3, 4] : Bytes).length < 5 ∧ (uuid.take 15).length < 16 := by decide
theorem witness_InboundRowsFeedTheirFrame : (Instr.evtDebug [0x68]).direction = some .deviceToHost ∧
    encode (.evtDebug [0x68]) = some [0x80, 0x01, 0xBC, 0x03, 0x68] := by decide
theorem witness_OverlongRowsAreRefused : (Instr.respPing (zeros 252)).direction = some .deviceToHost ∧
    (Instr.respPing (zeros 252)).wellFormed cfg = false :=
  ⟨rfl, by simp [Instr.wellFormed, payloadFits, cfg]⟩
theorem witness_FeedingBackAnyCommandAnswersOk : State.reset.codec.rxOff = 0 ∧
    encodeRequest cfg .readMajor = some [0x00, 0x00, 0xBC, 0x0B] := by decide

end Sys2Proof.Tests
end

section
/-! The two byte orders (20_memory R48 to R50): `le16` takes a 16-bit value apart low byte first, and `be16` puts two bytes
together high byte first. -/

namespace Sys2Proof.Machine.ByteOrders

open Sys2Proof Sys2Proof.Machine

/-- The low byte as R48 writes it, `v & 0xFF`. -/
theorem low_toNat_eq_and (v : Half) : (v.extractLsb' 0 8).toNat = v.toNat &&& 0xFF :=
  (low_toNat v).trans (Nat.and_two_pow_sub_one_eq_mod v.toNat 8).symm

/-- The high byte as R48 writes it, `v >> 8`. -/
theorem high_toNat_eq_shiftRight (v : Half) : (v.extractLsb' 8 8).toNat = v.toNat >>> 8 :=
  (high_toNat v).trans (Nat.shiftRight_eq_div_pow v.toNat 8).symm

/-- R48: the low byte, then the high byte. -/
theorem le16_eq_low_high (v : Half) :
    le16 v = [BitVec.ofNat 8 (v.toNat &&& 0xFF), BitVec.ofNat 8 (v.toNat >>> 8)] := by
  rw [← low_toNat_eq_and, ← high_toNat_eq_shiftRight, BitVec.ofNat_toNat, BitVec.ofNat_toNat]
  rfl

/-- R49: the first byte is the high one. -/
theorem be16_toNat (a b : Byte) : (be16 a b).toNat = a.toNat <<< 8 ||| b.toNat :=
  BitVec.toNat_append a b

/-- The two bytes of `le16` are the value's low and high byte. -/
theorem le16_eq_pair_iff_low_high {v : Half} {a b : Byte} :
    le16 v = [a, b] ↔ v.extractLsb' 0 8 = a ∧ v.extractLsb' 8 8 = b := by
  simp [le16]

/-- The bytes of a value in one order are those it is put together from in the other, exchanged. -/
theorem le16_eq_pair_iff {v : Half} {a b : Byte} : le16 v = [a, b] ↔ v = be16 b a := by
  constructor
  · intro h
    obtain ⟨rfl, rfl⟩ := le16_eq_pair_iff_low_high.mp h
    exact (high_append_low v).symm
  · rintro rfl
    exact le16_append b a

/-- Reading high byte first what went out low byte first swaps the bytes (R50). -/
theorem be16_toNat_of_le16_eq {v : Half} {a b : Byte} (h : le16 v = [a, b]) :
    (be16 a b).toNat = (v.toNat &&& 0xFF) <<< 8 ||| v.toNat >>> 8 := by
  obtain ⟨rfl, rfl⟩ := le16_eq_pair_iff_low_high.mp h
  rw [be16_toNat, low_toNat_eq_and, high_toNat_eq_shiftRight]

/-- The byte swap leaves a pair of bytes as it is only when they are equal. -/
theorem be16_comm_iff {a b : Byte} : be16 a b = be16 b a ↔ a = b := by
  constructor
  · intro h
    have hpair : le16 (be16 b a) = [b, a] := le16_eq_pair_iff.mpr h.symm
    exact (List.cons.inj ((le16_append b a).symm.trans hpair)).1
  · rintro rfl
    rfl

/-- Settles O31: the two requests and the decode format are `le16` and `be16`, and a value with the bytes `[a, b]` in the
one order is `be16 b a` in the other. -/
theorem sixteenBitByteOrders : Obligations.SixteenBitByteOrders := by
  refine ⟨fun v => ⟨rfl, rfl⟩, fun a b q => rfl, le16_eq_low_high, be16_toNat, fun v a b h => ?_⟩
  refine ⟨be16_toNat_of_le16_eq h, ?_⟩
  rw [le16_eq_pair_iff.mp h]
  exact be16_comm_iff

end Sys2Proof.Machine.ByteOrders
end

section
/-! What `ENCODE` answers (40_encoder_commands R100, R102), in every state, and that it leaves the codec and the requests as
they are. -/

namespace Sys2Proof.Machine.EncodeAnswers

open Sys2Proof Sys2Proof.Machine

/-- `ENCODE` of a request with a payload: the frame is the result, and the codec is the one it was. -/
theorem exec_encode_some {cmd : CommandRequest} {p : Bytes} (s : State) (h : cmd.payload cfg = some p) :
    exec (.encode cmd) s =
      .next { s with results := [⟨.ok, .frame (frame cfg mtCommand (cfg.cmdCode cmd.name) p)⟩] } :=
  congrArg (finish s) (encodeOp_some s.codec (encodeRequest_some h))

/-- `ENCODE` of a request without one: only the status changes. -/
theorem exec_encode_none {cmd : CommandRequest} (s : State) (h : cmd.payload cfg = none) :
    exec (.encode cmd) s = .next { s with results := [⟨.invalidArgument cmd.name, .none⟩] } :=
  congrArg (finish s) (encodeOp_none s.codec (encodeRequest_none h))

/-- Settles O34: a request has a payload, no longer than `MAX_PAYLOAD`, or it has none, and `ENCODE` has one answer for
each. -/
theorem encodeReturnsTheFrame : Obligations.EncodeReturnsTheFrame := by
  intro s cmd
  constructor
  · intro p hp
    exact ⟨payload_length_le cfg_valid hp, exec_encode_some s hp⟩
  · exact exec_encode_none s

end Sys2Proof.Machine.EncodeAnswers
end

section
/-! One `FEED` of the machine (41_parser R141, R142): what the byte leaves in the buffer and in `rx_len`, and which offset
each error status belongs to. -/

namespace Sys2Proof.Machine.FeedOneByte

open Sys2Proof Sys2Proof.Machine

/-! ## `FEED` as an instruction -/

/-- A `FEED` whose byte the parser takes is delivered with one result. -/
theorem exec_feed_ok {s : State} {b : Byte} {r : Result} {k : Codec} (h : feedByte cfg b s.codec = .ok (r, k)) :
    exec (.feed b) s = .next (s.deliver k [r]) := by
  change execFeed b s = _
  simp [execFeed, h, Except.map]

/-- A `FEED` that completes delivers the one result of its byte. -/
theorem exec_feed_next {s t : State} {b : Byte} (h : exec (.feed b) s = .next t) :
    ∃ r k, feedByte cfg b s.codec = .ok (r, k) ∧ t = s.deliver k [r] := by
  obtain ⟨rs, k, hx, ht⟩ := finishAll_next (show execFeed b s = .next t from h)
  match hf : feedByte cfg b s.codec with
  | .error f => simp [hf, Except.map] at hx
  | .ok (r, k') =>
    obtain ⟨rfl, rfl⟩ : [r] = rs ∧ k' = k := by simpa [hf, Except.map] using hx
    exact ⟨r, k', rfl, ht⟩

/-- The state that has stored the byte is the one R142 describes. -/
theorem storedByte_deliver_store (b : Byte) (s : State) :
    StoredByte b s (s.deliver (s.codec.store b) [⟨.ok, .none⟩]) where
  results_eq := rfl
  rxOff_eq := rfl
  rxLen_eq := rfl
  busy_eq := rfl
  rxBuf_read := Memory.read_write s.codec.rxBuf s.codec.rxOff b
  txLog_eq := rfl
  requests_eq := rfl

/-- A byte inside the buffer that neither is rejected nor completes the frame is stored. -/
theorem exec_feed_stored {s : State} {b : Byte} (hcap : s.codec.rxOff < cfg.bufCap)
    (h0 : s.codec.rxOff = 0 → b.extractLsb' 0 7 = 0) (h1 : s.codec.rxOff = 1 → b.toNat ≤ cfg.maxPayload)
    (hn : ¬ (3 ≤ s.codec.rxOff ∧ s.codec.rxOff + 1 = s.codec.rxLen.toNat + hdrLen)) :
    ∃ t, exec (.feed b) s = .next t ∧ StoredByte b s t :=
  ⟨_, exec_feed_ok (feedByte_stored hcap h0 h1 hn), storedByte_deliver_store b s⟩

/-! ## The low 7 bits of a first byte -/

theorem and_0x7F_toNat (b : Byte) : (b &&& 0x7F).toNat = b.toNat % 128 :=
  Nat.and_two_pow_sub_one_eq_mod b.toNat 7

theorem and_0x7F_eq_zero_iff {b : Byte} : b &&& 0x7F = 0 ↔ b.toNat % 128 = 0 := by
  rw [← BitVec.toNat_inj, and_0x7F_toNat]
  exact Iff.rfl

/-- The mask of R141 and the bit field the model reads are one check. -/
theorem extractLsb'_low7_eq_zero_iff {b : Byte} : b.extractLsb' 0 7 = 0 ↔ b &&& 0x7F = 0 := by
  rw [and_0x7F_eq_zero_iff, ← BitVec.toNat_inj, BitVec.extractLsb'_toNat, Nat.shiftRight_zero]
  exact Iff.rfl

/-- The two message types are the only legal first bytes. -/
theorem and_0x7F_eq_zero_iff_messageType {b : Byte} : b &&& 0x7F = 0 ↔ b = 0x00 ∨ b = 0x80 := by
  rw [and_0x7F_eq_zero_iff, ← BitVec.toNat_inj, ← BitVec.toNat_inj]
  change b.toNat % 128 = 0 ↔ b.toNat = 0 ∨ b.toNat = 128
  omega

/-! ## What a completed frame can answer -/

theorem decodeFormat_status (c : Config) (fmt : DecFormat) (p : Bytes) (kd : Kind) :
    (decodeFormat c fmt p kd).status = .ok ∨ (decodeFormat c fmt p kd).status = .errMalformed kd p.length := by
  by_cases h : p.length < fmt.need c
  · exact .inr (by rw [decodeFormat_short kd h])
  · exact .inl (by rw [decodeFormat_ok kd (Nat.not_lt.mp h)])

/-- The dispatch decoder answers `OK` or `ERR_MALFORMED`. -/
theorem dispatch_status (c : Config) (mt code : Byte) (p : Bytes) :
    (dispatch c mt code p).status = .ok ∨ ∃ kd n, (dispatch c mt code p).status = .errMalformed kd n := by
  unfold dispatch
  split <;> split
  · exact (decodeFormat_status ..).imp_right fun h => ⟨_, _, h⟩
  · exact .inl rfl
  · exact (decodeFormat_status ..).imp_right fun h => ⟨_, _, h⟩
  · exact .inl rfl

/-- So does the completion of a frame. -/
theorem completeFrame_status {c : Config} {k k' : Codec} {r : Result} (h : completeFrame c k = .ok (r, k')) :
    r.status = .ok ∨ ∃ kd n, r.status = .errMalformed kd n := by
  obtain ⟨mt, cls, code, p, -, -, -, -, hx⟩ := completeFrame_eq_ok h
  obtain ⟨rfl, -⟩ := Prod.mk.inj hx
  split
  · exact dispatch_status c mt code p
  · exact .inl rfl

/-- The completion of a frame leaves the buffer and the length as they are. -/
theorem completeFrame_keeps {c : Config} {k k' : Codec} {r : Result} (h : completeFrame c k = .ok (r, k')) :
    k'.rxBuf = k.rxBuf ∧ k'.rxLen = k.rxLen := by
  obtain ⟨mt, cls, code, p, -, -, -, -, hx⟩ := completeFrame_eq_ok h
  obtain ⟨-, rfl⟩ := Prod.mk.inj hx
  exact ⟨rfl, rfl⟩

/-! ## The offset of each error, and what a later byte leaves -/

section
variable {c : Config} {b b' : Byte} {k k' : Codec} {r : Result}

/-- `ERR_FRAMING` is the answer to a first byte. -/
theorem rxOff_eq_zero_of_errFraming (h : feedByte c b k = .ok (r, k')) (hr : r.status = .errFraming b') :
    k.rxOff = 0 := by
  cases feedByte_cases h with
  | rejected h0 _ _ _ => exact h0
  | stored _ _ _ _ hok _ => simp [hok] at hr
  | illegal _ _ hlen _ => simp [hlen] at hr
  | completed _ _ _ hx =>
    obtain hst | ⟨kd, n, hst⟩ := completeFrame_status hx <;> simp [hst] at hr

/-- `ERR_LENGTH` is the answer to a second byte. -/
theorem rxOff_eq_one_of_errLength (h : feedByte c b k = .ok (r, k')) (hr : r.status = .errLength b') :
    k.rxOff = 1 := by
  cases feedByte_cases h with
  | rejected _ _ hfr _ => simp [hfr] at hr
  | stored _ _ _ _ hok _ => simp [hok] at hr
  | illegal h1 _ _ _ => exact h1
  | completed _ _ _ hx =>
    obtain hst | ⟨kd, n, hst⟩ := completeFrame_status hx <;> simp [hst] at hr

/-- A later byte is written at `rx_off`, and captured as the length at offset 1, whatever becomes of the frame. -/
theorem feedByte_later_writes (h : feedByte c b k = .ok (r, k')) (hoff : k.rxOff ≠ 0) :
    k'.rxBuf = k.rxBuf.write k.rxOff b ∧ k'.rxLen = if k.rxOff = 1 then b else k.rxLen := by
  cases feedByte_cases h with
  | rejected h0 _ _ _ => exact absurd h0 hoff
  | stored _ _ _ _ _ hk => simp [hk]
  | illegal h1 _ _ hk => simp [hk, h1]
  | completed _ _ _ hx => exact completeFrame_keeps hx

end

/-! ## The obligations -/

/-- Settles O10: the model's bit-field check is R141's mask, the two answers at offset 0 are `feedByte_rejected` and
`feedByte_stored`, and `ERR_FRAMING` at another offset is excluded by the inversion of `FEED`. -/
theorem firstByteIsCheckedThenStored : Obligations.FirstByteIsCheckedThenStored := by
  refine ⟨fun b => and_0x7F_eq_zero_iff_messageType, fun s b h0 => ⟨fun hb => ?_, fun hb => ?_⟩, ?_⟩
  · exact exec_feed_ok (feedByte_rejected h0 (mt extractLsb'_low7_eq_zero_iff.mp hb))
  · have hcap : s.codec.rxOff < cfg.bufCap := by rw [h0]; decide
    exact exec_feed_stored hcap (fun _ => extractLsb'_low7_eq_zero_iff.mpr hb) (by omega) (by omega)
  · intro s t b hoff hexec r hr b' hst
    obtain ⟨r', k, hfeed, rfl⟩ := exec_feed_next hexec
    obtain rfl : r = r' := List.mem_singleton.mp hr
    exact hoff (rxOff_eq_zero_of_errFraming hfeed hst)

/-- Settles O11: every way a later `FEED` can end has written the byte at `rx_off`, and only the second byte can be an
illegal length. -/
theorem laterBytesAreStoredUnexamined : Obligations.LaterBytesAreStoredUnexamined := by
  constructor
  · intro s t b hoff hexec
    obtain ⟨r, k, hfeed, rfl⟩ := exec_feed_next hexec
    obtain ⟨hbuf, hlen⟩ := feedByte_later_writes hfeed (by omega)
    refine ⟨fun a => ?_, hlen, fun r' hr b' hst => ?_⟩
    · rw [State.deliver_codec, hbuf, Memory.read_write]
    · obtain rfl : r' = r := List.mem_singleton.mp hr
      exact rxOff_eq_one_of_errLength hfeed hst
  · intro s b hoff hcap hlen hn
    exact exec_feed_stored hcap (by omega) hlen hn

end Sys2Proof.Machine.FeedOneByte
end

section
/-! The dispatch decoder (42_dispatch_responses R170): what it answers for a code of the frame's table, on both sides of the
format's need, and for any other code. -/

namespace Sys2Proof.Machine.DispatchTables

open Sys2Proof Sys2Proof.Machine

/-! ## A code that is not in the table of the message type -/

theorem dispatch_command_unrecognized {c : Config} {code : Byte} (p : Bytes) (h : ∀ m, c.cmdCode m ≠ code) :
    dispatch c mtCommand code p = ⟨.ok, .none⟩ := by
  simp [dispatch, findCmd_none h]

theorem dispatch_event_unrecognized {c : Config} {code : Byte} (p : Bytes) (h : ∀ m, c.evtCode m ≠ code) :
    dispatch c mtEvent code p = ⟨.ok, .none⟩ := by
  simp [dispatch, findEvt_none h, show mtEvent ≠ mtCommand by decide]

/-! ## The obligation -/

/-- Settles O9: a valid configuration's codes are distinct, so the lookup finds the code's own format (`dispatch_command`,
`dispatch_event`), which `decodeFormat_short` and `decodeFormat_ok` answer; any other code is not found. -/
theorem dispatchFollowsTheTables : Obligations.DispatchFollowsTheTables := by
  intro c hc p
  refine ⟨fun m => ?command, fun m => ?event, fun _ h => dispatch_command_unrecognized p h,
    fun _ h => dispatch_event_unrecognized p h⟩
  case command =>
    rw [dispatch_command hc]
    exact ⟨decodeFormat_short _, decodeFormat_ok _⟩
  case event =>
    rw [dispatch_event hc]
    exact ⟨decodeFormat_short _, decodeFormat_ok _⟩

end Sys2Proof.Machine.DispatchTables
end

section
/-! The rows by kind: a row is the row of a request, of a response or of an event, or one of the six operations. What each
kind means, its frame, its direction and its well-formedness are said here once, and `row_cases` brings any instruction to
its kind. -/

namespace Sys2Proof.Machine.Rows

open Sys2Proof Sys2Proof.Machine

/-! ## The kinds -/

/-- The kind of an instruction. -/
inductive Row : Instr → Prop
  | request (cmd : CommandRequest) : Row (.ofRequest cmd)
  | response (m : CmdName) (p : Bytes) : Row (.ofResponse m p)
  | event (m : EvtName) (p : Bytes) : Row (.ofEvent m p)
  | encode (cmd : CommandRequest) : Row (.encode cmd)
  | transmit (cmd : CommandRequest) : Row (.transmit cmd)
  | feed (b : Byte) : Row (.feed b)
  | feedChunk (bs : Bytes) : Row (.feedChunk bs)
  | resync : Row .resync
  | opReset : Row .opReset

theorem row_cases : (i : Instr) → Row i
  | .reset f => .request (.reset f)
  | .ping => .request .ping
  | .readBtAddress => .request .readBtAddress
  | .readVersion => .request .readVersion
  | .writeVersion v => .request (.writeVersion v)
  | .readLoudness => .request .readLoudness
  | .writeLoudness v => .request (.writeLoudness v)
  | .readMode => .request .readMode
  | .writeMode v => .request (.writeMode v)
  | .readUuid => .request .readUuid
  | .writeUuid u => .request (.writeUuid u)
  | .readMajor => .request .readMajor
  | .writeMajor v => .request (.writeMajor v)
  | .readMinor => .request .readMinor
  | .writeMinor v => .request (.writeMinor v)
  | .readPower => .request .readPower
  | .writePower v => .request (.writePower v)
  | .readAdvEnabled => .request .readAdvEnabled
  | .writeAdvEnabled f => .request (.writeAdvEnabled f)
  | .readEventsEnabled => .request .readEventsEnabled
  | .writeEventsEnabled f => .request (.writeEventsEnabled f)
  | .readTargetSpeed => .request .readTargetSpeed
  | .readModelNumber => .request .readModelNumber
  | .readFirmwareVersion => .request .readFirmwareVersion
  | .readCrashReport => .request .readCrashReport
  | .cancelDataBlocks => .request .cancelDataBlocks
  | .sendDataBlocks t e r d => .request (.sendDataBlocks t e r d)
  | .respondDataRequest d => .request (.respondDataRequest d)
  | .beginSettingsUpdate => .request .beginSettingsUpdate
  | .endSettingsUpdate => .request .endSettingsUpdate
  | .respReset p => .response .reset p
  | .respPing p => .response .ping p
  | .respReadBtAddress p => .response .readBtAddress p
  | .respReadVersion p => .response .readVersion p
  | .respWriteVersion p => .response .writeVersion p
  | .respReadLoudness p => .response .readLoudness p
  | .respWriteLoudness p => .response .writeLoudness p
  | .respReadMode p => .response .readMode p
  | .respWriteMode p => .response .writeMode p
  | .respReadUuid p => .response .readUuid p
  | .respWriteUuid p => .response .writeUuid p
  | .respReadMajor p => .response .readMajor p
  | .respWriteMajor p => .response .writeMajor p
  | .respReadMinor p => .response .readMinor p
  | .respWriteMinor p => .response .writeMinor p
  | .respReadPower p => .response .readPower p
  | .respWritePower p => .response .writePower p
  | .respReadAdvEnabled p => .response .readAdvEnabled p
  | .respWriteAdvEnabled p => .response .writeAdvEnabled p
  | .respReadEventsEnabled p => .response .readEventsEnabled p
  | .respWriteEventsEnabled p => .response .writeEventsEnabled p
  | .respReadTargetSpeed p => .response .readTargetSpeed p
  | .respReadModelNumber p => .response .readModelNumber p
  | .respReadFirmwareVersion p => .response .readFirmwareVersion p
  | .respReadCrashReport p => .response .readCrashReport p
  | .respCancelDataBlocks p => .response .cancelDataBlocks p
  | .respSendDataBlocks p => .response .sendDataBlocks p
  | .respRespondDataRequest p => .response .respondDataRequest p
  | .respBeginSettingsUpdate p => .response .beginSettingsUpdate p
  | .respEndSettingsUpdate p => .response .endSettingsUpdate p
  | .evtConnect p => .event .connect p
  | .evtDisconnect p => .event .disconnect p
  | .evtDebug p => .event .debug p
  | .evtAuthSucceeded p => .event .authSucceeded p
  | .evtAuthFailed p => .event .authFailed p
  | .evtError p => .event .error p
  | .evtSettingsSaved p => .event .settingsSaved p
  | .evtDataRequest p => .event .dataRequest p
  | .evtDataBlocksSent p => .event .dataBlocksSent p
  | .evtDataIndicated p => .event .dataIndicated p
  | .encode cmd => .encode cmd
  | .transmit cmd => .transmit cmd
  | .feed b => .feed b
  | .feedChunk bs => .feedChunk bs
  | .resync => .resync
  | .opReset => .opReset

/-! ## What a row of each kind means -/

theorem exec_ofRequest (cmd : CommandRequest) (s : State) : exec (.ofRequest cmd) s = transmitRow cmd s := by
  cases cmd <;> rfl

theorem exec_ofResponse (m : CmdName) (p : Bytes) (s : State) :
    exec (.ofResponse m p) s = receiveResponse m p s := by
  cases m <;> rfl

theorem exec_ofEvent (m : EvtName) (p : Bytes) (s : State) : exec (.ofEvent m p) s = receiveEvent m p s := by
  cases m <;> rfl

/-! ## The frame of a row of each kind -/

@[simp] theorem encodeWith_ofRequest (c : Config) (cmd : CommandRequest) :
    encodeWith c (.ofRequest cmd) = encodeRequest c cmd := by
  cases cmd <;> rfl

@[simp] theorem encodeWith_ofResponse (c : Config) (m : CmdName) (p : Bytes) :
    encodeWith c (.ofResponse m p) = inboundFrame c mtCommand (c.cmdCode m) p := by
  cases m <;> rfl

@[simp] theorem encodeWith_ofEvent (c : Config) (m : EvtName) (p : Bytes) :
    encodeWith c (.ofEvent m p) = inboundFrame c mtEvent (c.evtCode m) p := by
  cases m <;> rfl

/-! ## The direction of a row of each kind -/

@[simp] theorem direction_ofRequest (cmd : CommandRequest) : (Instr.ofRequest cmd).direction = some .hostToDevice := by
  cases cmd <;> rfl

@[simp] theorem direction_ofResponse (m : CmdName) (p : Bytes) :
    (Instr.ofResponse m p).direction = some .deviceToHost := by
  cases m <;> rfl

@[simp] theorem direction_ofEvent (m : EvtName) (p : Bytes) : (Instr.ofEvent m p).direction = some .deviceToHost := by
  cases m <;> rfl

/-! ## The well-formedness of a row of each kind -/

@[simp] theorem wellFormed_ofRequest (c : Config) (cmd : CommandRequest) :
    (Instr.ofRequest cmd).wellFormed c = cmd.wellFormed c := by
  cases cmd <;> rfl

@[simp] theorem wellFormed_ofResponse (c : Config) (m : CmdName) (p : Bytes) :
    (Instr.ofResponse m p).wellFormed c = payloadFits c p := by
  cases m <;> rfl

@[simp] theorem wellFormed_ofEvent (c : Config) (m : EvtName) (p : Bytes) :
    (Instr.ofEvent m p).wellFormed c = payloadFits c p := by
  cases m <;> rfl

theorem payloadFits_iff {c : Config} {p : Bytes} : payloadFits c p = true ↔ p.length ≤ c.maxPayload :=
  decide_eq_true_iff

theorem inboundFrame_eq_some_iff {c : Config} {mt code : Byte} {p f : Bytes} :
    inboundFrame c mt code p = some f ↔ p.length ≤ c.maxPayload ∧ frame c mt code p = f := by
  simp [inboundFrame]

theorem encodeRequest_eq_some_iff {c : Config} {cmd : CommandRequest} {f : Bytes} :
    encodeRequest c cmd = some f ↔ ∃ p, cmd.payload c = some p ∧ frame c mtCommand (c.cmdCode cmd.name) p = f :=
  Option.map_eq_some_iff

/-- A request has a payload exactly when its arguments have legal lengths (R102). -/
theorem payload_isSome_eq_wellFormed (c : Config) (cmd : CommandRequest) :
    (cmd.payload c).isSome = cmd.wellFormed c := by
  cases cmd
  case writeUuid u => by_cases h : u.length = c.uuidLen <;> simp [CommandRequest.payload, cmdUuid, h,
    CommandRequest.wellFormed]
  case sendDataBlocks t e r d => by_cases h : 3 + d.length ≤ c.maxPayload <;> simp [CommandRequest.payload, cmdBlocks, h,
    CommandRequest.wellFormed]
  case respondDataRequest d => by_cases h : d.length ≤ c.maxPayload <;> simp [CommandRequest.payload, cmdBytes, h,
    CommandRequest.wellFormed]
  all_goals rfl

theorem exists_encodeRequest_iff {c : Config} {cmd : CommandRequest} :
    (∃ f, encodeRequest c cmd = some f) ↔ cmd.wellFormed c = true := by
  rw [← payload_isSome_eq_wellFormed, ← Option.isSome_iff_exists, encodeRequest, Option.isSome_map]

theorem exists_inboundFrame_iff {c : Config} {mt code : Byte} {p : Bytes} :
    (∃ f, inboundFrame c mt code p = some f) ↔ payloadFits c p = true := by
  simp [inboundFrame_eq_some_iff, payloadFits_iff]

/-! ## The obligations -/

/-- Settles O6, by the kind of the row: a request has a frame when its arguments' lengths are legal, a response or event
when its payload fits. -/
theorem wellFormedRowsAreThoseWithAFrame : Obligations.WellFormedRowsAreThoseWithAFrame := by
  intro c i
  cases row_cases i with
  | request cmd => simp [exists_encodeRequest_iff]
  | response m p => simp [exists_inboundFrame_iff]
  | event m p => simp [exists_inboundFrame_iff]
  | encode | transmit | feed | feedChunk | resync | opReset => simp [encodeWith, Instr.direction]

/-- Settles O55: a row from the device with a frame has a payload that fits, and its meaning is then to feed that frame. -/
theorem inboundRowsFeedTheirFrame : Obligations.InboundRowsFeedTheirFrame := by
  intro i f s hd hf
  cases row_cases i with
  | request cmd => simp at hd
  | response m p =>
    obtain ⟨hp, rfl⟩ := inboundFrame_eq_some_iff.mp ((encodeWith_ofResponse cfg m p).symm.trans hf)
    exact (exec_ofResponse m p s).trans (receiveRow_fits s hp)
  | event m p =>
    obtain ⟨hp, rfl⟩ := inboundFrame_eq_some_iff.mp ((encodeWith_ofEvent cfg m p).symm.trans hf)
    exact (exec_ofEvent m p s).trans (receiveRow_fits s hp)
  | encode | transmit | feed | feedChunk | resync | opReset => simp [Instr.direction] at hd

/-- Settles O56: a row from the device is ill formed only when its payload is too long, and is then refused. -/
theorem overlongRowsAreRefused : Obligations.OverlongRowsAreRefused := by
  intro i s hd hwf
  cases row_cases i with
  | request cmd => simp at hd
  | response m p =>
    rw [exec_ofResponse]
    exact receiveRow_overlong s (by simpa [payloadFits] using hwf)
  | event m p =>
    rw [exec_ofEvent]
    exact receiveRow_overlong s (by simpa [payloadFits] using hwf)
  | encode | transmit | feed | feedChunk | resync | opReset => simp [Instr.direction] at hd

end Sys2Proof.Machine.Rows
end

section
/-! The wire both ways (30_encoding R67, 40_encoder_commands R103): each request format and its inverse, the request of a
payload, and the row of a frame. -/

namespace Sys2Proof.Machine.WireRoundTrip

open Sys2Proof Sys2Proof.Machine Sys2Proof.Machine.Rows

/-! ## Each request format and its inverse -/

theorem argNone_eq_some_iff {cmd cmd' : CommandRequest} {p : Bytes} :
    argNone cmd p = some cmd' ↔ cmd = cmd' ∧ cmdNone = p := by
  simp [argNone, cmdNone, and_comm, eq_comm]

theorem argBool_eq_some_iff {mk : Bool → CommandRequest} {p : Bytes} {cmd : CommandRequest} :
    argBool mk p = some cmd ↔ ∃ f, mk f = cmd ∧ cmdBool f = p := by
  have hbytes : (∃ f, mk f = cmd ∧ cmdBool f = p) ↔ mk false = cmd ∧ [0] = p ∨ mk true = cmd ∧ [1] = p := by
    simp [cmdBool]
  rw [hbytes]
  unfold argBool
  split
  · next h0 => simp [h0]
  · split
    · next h1 => simp [h1]
    · next h0 h1 => exact iff_of_false nofun fun h => h.elim (fun h => h0 h.2.symm) fun h => h1 h.2.symm

theorem argU8_eq_some_iff {mk : Byte → CommandRequest} {p : Bytes} {cmd : CommandRequest} :
    argU8 mk p = some cmd ↔ ∃ v, mk v = cmd ∧ cmdU8 v = p := by
  match p with
  | [] => simp [argU8, cmdU8]
  | [v] => simp [argU8, cmdU8]
  | _ :: _ :: _ => simp [argU8, cmdU8]

theorem cmdI8_toInt (v : BitVec 8) : cmdI8 v.toInt = cmdU8 v := by
  simp [cmdI8, cmdU8]

theorem argU16le_eq_some_iff {mk : Half → CommandRequest} {p : Bytes} {cmd : CommandRequest} :
    argU16le mk p = some cmd ↔ ∃ v, mk v = cmd ∧ cmdU16le v = p := by
  match p with
  | [] => simp [argU16le, cmdU16le, le16]
  | [_] => simp [argU16le, cmdU16le, le16]
  | [lo, hi] =>
    have hbytes : ∀ v : Half, cmdU16le v = [lo, hi] ↔ hi ++ lo = v := fun v =>
      ByteOrders.le16_eq_pair_iff.trans eq_comm
    simp [argU16le, hbytes]
  | _ :: _ :: _ :: _ => simp [argU16le, cmdU16le, le16]

theorem argUuid_eq_some_iff {c : Config} {mk : Bytes → CommandRequest} {p : Bytes} {cmd : CommandRequest} :
    argUuid c mk p = some cmd ↔ ∃ u, mk u = cmd ∧ cmdUuid c u = some p := by
  simp only [argUuid, cmdUuid, Option.ite_none_right_eq_some, Option.some.injEq]
  constructor
  · rintro ⟨hl, hc⟩
    exact ⟨p, hc, hl, rfl⟩
  · rintro ⟨u, hc, hl, rfl⟩
    exact ⟨hl, hc⟩

/-- The data of a payload within `MAX_PAYLOAD` is within what the sub-header leaves. -/
theorem argBlocks_eq_some_iff {c : Config} {mk : Byte → Byte → Byte → Bytes → CommandRequest} {p : Bytes}
    {cmd : CommandRequest} (hp : p.length ≤ c.maxPayload) :
    argBlocks mk p = some cmd ↔ ∃ t e r d, mk t e r d = cmd ∧ cmdBlocks c t e r d = some p := by
  match p, hp with
  | [], _ => simp [argBlocks, cmdBlocks]
  | [_], _ => simp [argBlocks, cmdBlocks]
  | [_, _], _ => simp [argBlocks, cmdBlocks]
  | t :: e :: r :: d, hp =>
    have hd : 3 + d.length ≤ c.maxPayload := by
      simp only [List.length_cons] at hp
      omega
    simp only [argBlocks, cmdBlocks, Option.some.injEq, Option.ite_none_right_eq_some, List.cons.injEq]
    constructor
    · intro hc
      exact ⟨t, e, r, d, hc, hd, rfl, rfl, rfl, rfl⟩
    · rintro ⟨t', e', r', d', hc, -, rfl, rfl, rfl, rfl⟩
      exact hc

theorem cmdBytes_eq_some_iff {c : Config} {d p : Bytes} :
    cmdBytes c d = some p ↔ d.length ≤ c.maxPayload ∧ d = p := by
  simp [cmdBytes]

/-! ## The request of a payload -/

/-- The arguments of a payload are those of the one request that has the mnemonic and the payload. -/
theorem decodeArgs_eq_some_iff {c : Config} {m : CmdName} {p : Bytes} {cmd : CommandRequest}
    (hp : p.length ≤ c.maxPayload) :
    decodeArgs c m p = some cmd ↔ cmd.name = m ∧ cmd.payload c = some p := by
  constructor
  · intro h
    cases m
    case reset | writeAdvEnabled | writeEventsEnabled =>
      obtain ⟨f, rfl, rfl⟩ := argBool_eq_some_iff.mp h
      exact ⟨rfl, rfl⟩
    case writeVersion | writeLoudness | writeMode =>
      obtain ⟨v, rfl, rfl⟩ := argU8_eq_some_iff.mp h
      exact ⟨rfl, rfl⟩
    case writePower =>
      obtain ⟨v, rfl, rfl⟩ := argU8_eq_some_iff.mp h
      exact ⟨rfl, congrArg some (cmdI8_toInt v)⟩
    case writeMajor | writeMinor =>
      obtain ⟨v, rfl, rfl⟩ := argU16le_eq_some_iff.mp h
      exact ⟨rfl, rfl⟩
    case writeUuid =>
      obtain ⟨u, rfl, hu⟩ := argUuid_eq_some_iff.mp h
      exact ⟨rfl, hu⟩
    case sendDataBlocks =>
      obtain ⟨t, e, r, d, rfl, hd⟩ := (argBlocks_eq_some_iff hp).mp h
      exact ⟨rfl, hd⟩
    case respondDataRequest =>
      obtain rfl := Option.some.inj h
      exact ⟨rfl, cmdBytes_eq_some_iff.mpr ⟨hp, rfl⟩⟩
    all_goals
      obtain ⟨rfl, rfl⟩ := argNone_eq_some_iff.mp h
      exact ⟨rfl, rfl⟩
  · rintro ⟨rfl, h⟩
    cases cmd
    case reset f | writeAdvEnabled f | writeEventsEnabled f =>
      exact argBool_eq_some_iff.mpr ⟨f, rfl, Option.some.inj h⟩
    case writeVersion v | writeLoudness v | writeMode v =>
      exact argU8_eq_some_iff.mpr ⟨v, rfl, Option.some.inj h⟩
    case writePower v =>
      exact argU8_eq_some_iff.mpr ⟨v, rfl, (cmdI8_toInt v).symm.trans (Option.some.inj h)⟩
    case writeMajor v | writeMinor v =>
      exact argU16le_eq_some_iff.mpr ⟨v, rfl, Option.some.inj h⟩
    case writeUuid u => exact argUuid_eq_some_iff.mpr ⟨u, rfl, h⟩
    case sendDataBlocks t e r d => exact (argBlocks_eq_some_iff hp).mpr ⟨t, e, r, d, rfl, h⟩
    case respondDataRequest d =>
      obtain ⟨-, rfl⟩ := cmdBytes_eq_some_iff.mp h
      rfl
    all_goals exact argNone_eq_some_iff.mpr ⟨rfl, Option.some.inj h⟩

/-! ## The frame of a request, and of a row from the device -/

/-- A request's frame decodes to that request (R103). -/
theorem decodeOutbound_encodeRequest {c : Config} (hc : c.Valid) {cmd : CommandRequest} {f : Bytes}
    (h : encodeRequest c cmd = some f) : decodeOutbound c f = .ok cmd := by
  obtain ⟨p, hpay, rfl⟩ := encodeRequest_eq_some_iff.mp h
  have hp := payload_length_le hc hpay
  have hargs : decodeArgs c cmd.name p = some cmd := (decodeArgs_eq_some_iff hp).mpr ⟨rfl, hpay⟩
  simp [decodeOutbound, splitFrame_frame hc (.inl rfl) hp, findCmd_cmdCode hc, hargs]

/-- Bytes that decode to a request are its frame. -/
theorem encodeRequest_decodeOutbound {c : Config} {bs : Bytes} {cmd : CommandRequest}
    (h : decodeOutbound c bs = .ok cmd) : encodeRequest c cmd = some bs := by
  unfold decodeOutbound at h
  split at h
  · simp at h
  next mt code p hsplit =>
  obtain ⟨rfl, -, hp⟩ := splitFrame_ok hsplit
  split at h
  · simp at h
  next hmt =>
  split at h
  · simp at h
  next m hfind =>
  split at h
  · simp at h
  next cmd' hargs =>
  obtain rfl := Except.ok.inj h
  obtain ⟨rfl, hpay⟩ := (decodeArgs_eq_some_iff hp).mp hargs
  refine encodeRequest_eq_some_iff.mpr ⟨p, hpay, ?_⟩
  rw [findCmd_some hfind, not_not.mp hmt]

theorem decodeInbound_response {c : Config} (hc : c.Valid) (m : CmdName) {p : Bytes} (hp : p.length ≤ c.maxPayload) :
    decodeInbound c (frame c mtCommand (c.cmdCode m) p) = .ok (.ofResponse m p) := by
  simp [decodeInbound, splitFrame_frame hc (.inl rfl) hp, findCmd_cmdCode hc]

theorem decodeInbound_event {c : Config} (hc : c.Valid) (m : EvtName) {p : Bytes} (hp : p.length ≤ c.maxPayload) :
    decodeInbound c (frame c mtEvent (c.evtCode m) p) = .ok (.ofEvent m p) := by
  simp [decodeInbound, splitFrame_frame hc (.inr rfl) hp, findEvt_evtCode hc, show mtEvent ≠ mtCommand by decide]

/-- Bytes that decode to a row from the device are the frame of a response or of an event. -/
theorem decodeInbound_eq_ok {c : Config} {bs : Bytes} {i : Instr} (h : decodeInbound c bs = .ok i) :
    ∃ p, p.length ≤ c.maxPayload ∧
      ((∃ m, i = .ofResponse m p ∧ bs = frame c mtCommand (c.cmdCode m) p) ∨
        ∃ m, i = .ofEvent m p ∧ bs = frame c mtEvent (c.evtCode m) p) := by
  unfold decodeInbound at h
  split at h
  · simp at h
  next mt code p hsplit =>
  obtain ⟨rfl, hmt, hp⟩ := splitFrame_ok hsplit
  refine ⟨p, hp, ?_⟩
  split at h
  next hcmd =>
    split at h
    · simp at h
    next m hfind =>
    exact .inl ⟨m, (Except.ok.inj h).symm, by rw [findCmd_some hfind, hcmd]⟩
  next hcmd =>
    split at h
    · simp at h
    next m hfind =>
    exact .inr ⟨m, (Except.ok.inj h).symm, by rw [findEvt_some hfind, hmt.resolve_left hcmd]⟩

theorem decodeWith_hostToDevice_eq_ok {c : Config} {bs : Bytes} {i : Instr} :
    decodeWith c .hostToDevice bs = .ok i ↔ ∃ cmd, decodeOutbound c bs = .ok cmd ∧ .ofRequest cmd = i := by
  cases h : decodeOutbound c bs <;> simp [decodeWith, h]

/-! ## The obligations -/

/-- Settles O4, by the kind of the row. -/
theorem decodeOfEncodeIsTheInstruction : Obligations.DecodeOfEncodeIsTheInstruction := by
  intro c hc i d bs henc hdir
  cases row_cases i with
  | request cmd =>
    obtain rfl : Direction.hostToDevice = d := by simpa using hdir
    rw [encodeWith_ofRequest] at henc
    exact decodeWith_hostToDevice_eq_ok.mpr ⟨cmd, decodeOutbound_encodeRequest hc henc, rfl⟩
  | response m p =>
    obtain rfl : Direction.deviceToHost = d := by simpa using hdir
    rw [encodeWith_ofResponse] at henc
    obtain ⟨hp, rfl⟩ := inboundFrame_eq_some_iff.mp henc
    exact decodeInbound_response hc m hp
  | event m p =>
    obtain rfl : Direction.deviceToHost = d := by simpa using hdir
    rw [encodeWith_ofEvent] at henc
    obtain ⟨hp, rfl⟩ := inboundFrame_eq_some_iff.mp henc
    exact decodeInbound_event hc m hp
  | encode | transmit | feed | feedChunk | resync | opReset => simp [Instr.direction] at hdir

/-- Settles O5, by the direction: the parts that a decoder finds are put together again by the encoder. -/
theorem encodeOfDecodeIsTheFrame : Obligations.EncodeOfDecodeIsTheFrame := by
  intro c d bs i h
  cases d with
  | hostToDevice =>
    obtain ⟨cmd, hdec, rfl⟩ := decodeWith_hostToDevice_eq_ok.mp h
    exact ⟨(encodeWith_ofRequest c cmd).trans (encodeRequest_decodeOutbound hdec), direction_ofRequest cmd⟩
  | deviceToHost =>
    obtain ⟨p, hp, ⟨m, rfl, rfl⟩ | ⟨m, rfl, rfl⟩⟩ := decodeInbound_eq_ok h
    · exact ⟨(encodeWith_ofResponse c m p).trans (inboundFrame_eq_some_iff.mpr ⟨hp, rfl⟩), direction_ofResponse m p⟩
    · exact ⟨(encodeWith_ofEvent c m p).trans (inboundFrame_eq_some_iff.mpr ⟨hp, rfl⟩), direction_ofEvent m p⟩

/-- Settles O7: both requests are what their common frame decodes to. -/
theorem encodeIsInjectiveOnRequests : Obligations.EncodeIsInjectiveOnRequests := by
  intro c hc a b f ha hb
  exact Except.ok.inj ((decodeOutbound_encodeRequest hc ha).symm.trans (decodeOutbound_encodeRequest hc hb))

/-- Settles O8: a payload is no longer than `MAX_PAYLOAD`, so its length is the value of the length byte. -/
theorem encodedFramesHaveTheirHeader : Obligations.EncodedFramesHaveTheirHeader := by
  intro c hc cmd f h
  obtain ⟨p, hpay, rfl⟩ := encodeRequest_eq_some_iff.mp h
  have hp := payload_length_le hc hpay
  have hlen := length_byte hc hp
  exact ⟨_, p, rfl, hlen, by simp [frame, hlen], hlen.trans_le hp⟩

end Sys2Proof.Machine.WireRoundTrip
end

section
/-! What each instruction does to the codec, in six ways (`meaning_cases`): it transmits a frame, only answers, feeds bytes,
abandons an unfinished frame, starts over, or is refused. Statements about every instruction are proved of these six. -/

namespace Sys2Proof.Machine.Meanings

open Sys2Proof Sys2Proof.Machine Sys2Proof.Machine.Rows

/-- A chunk of one byte is that byte's `FEED` (R146). -/
theorem feedBytes_singleton (c : Config) (b : Byte) (k : Codec) :
    feedBytes c [b] k = (feedByte c b k).map fun x => ([x.1], x.2) := by
  cases h : feedByte c b k <;> simp [feedBytes, h, Except.map]

theorem exec_feed (b : Byte) (s : State) : exec (.feed b) s = finishAll s (feedBytes cfg [b] s.codec) :=
  congrArg (finishAll s) (feedBytes_singleton cfg b s.codec).symm

theorem exec_feedChunk (bs : Bytes) (s : State) : exec (.feedChunk bs) s = finishAll s (feedBytes cfg bs s.codec) := rfl

/-- What an instruction does, in every state. -/
inductive Meaning (i : Instr) : Prop
  | transmits (f : Bytes) (hi : i.direction = some .hostToDevice ∨ ∃ cmd, i = .transmit cmd)
      (h : ∀ s, exec i s =
        .next (s.deliver { s.codec with txLog := s.codec.txLog ++ [f], busy := true } [⟨.ok, .none⟩]))
  | answers (r : Result) (h : ∀ s, exec i s = .next (s.deliver s.codec [r]))
  | feeds (bs : Bytes) (hi : i.direction = some .deviceToHost ∨ (∃ b, i = .feed b) ∨ ∃ bs, i = .feedChunk bs)
      (h : ∀ s, exec i s = finishAll s (feedBytes cfg bs s.codec))
  | resyncs (h : ∀ s, exec i s = .next (s.deliver { s.codec with rxOff := 0 } [⟨.ok, .none⟩]))
  | resets (hi : i = .opReset) (h : ∀ s, exec i s = .next (s.deliver Codec.reset [⟨.ok, .none⟩]))
  | refused (h : ∀ s, exec i s = .refused .notAFrame)

/-- A transmission puts its request's frame on the output log, or answers that there is none. -/
theorem meaning_of_transmitOp {i : Instr} {cmd : CommandRequest}
    (hi : i.direction = some .hostToDevice ∨ ∃ cmd, i = .transmit cmd)
    (h : ∀ s, exec i s = finish s (transmitOp cfg cmd s.codec)) : Meaning i := by
  cases hf : encodeRequest cfg cmd with
  | some f => exact .transmits f hi fun s => by rw [h, transmitOp_some s.codec hf, finish_eq]
  | none => exact .answers _ fun s => by rw [h, transmitOp_none s.codec hf, finish_eq]

/-- `ENCODE` answers its request's frame, or that there is none. -/
theorem meaning_encode (cmd : CommandRequest) : Meaning (.encode cmd) := by
  cases hf : encodeRequest cfg cmd with
  | some f => exact .answers _ fun s => congrArg (finish s) (encodeOp_some s.codec hf)
  | none => exact .answers _ fun s => congrArg (finish s) (encodeOp_none s.codec hf)

/-- A row from the device feeds its frame, or is refused. -/
theorem meaning_of_receiveRow {i : Instr} {mt code : Byte} {p : Bytes} (hd : i.direction = some .deviceToHost)
    (h : ∀ s, exec i s = receiveRow mt code p s) : Meaning i := by
  by_cases hp : p.length ≤ cfg.maxPayload
  · exact .feeds _ (.inl hd) fun s => (h s).trans (receiveRow_fits s hp)
  · exact .refused fun s => (h s).trans (receiveRow_overlong s (Nat.not_le.mp hp))

theorem meaning_cases (i : Instr) : Meaning i := by
  cases row_cases i with
  | request cmd => exact meaning_of_transmitOp (.inl (direction_ofRequest cmd)) (exec_ofRequest cmd)
  | response m p => exact meaning_of_receiveRow (direction_ofResponse m p) (exec_ofResponse m p)
  | event m p => exact meaning_of_receiveRow (direction_ofEvent m p) (exec_ofEvent m p)
  | encode cmd => exact meaning_encode cmd
  | transmit cmd => exact meaning_of_transmitOp (.inr ⟨cmd, rfl⟩) fun _ => rfl
  | feed b => exact .feeds [b] (.inr (.inl ⟨b, rfl⟩)) (exec_feed b)
  | feedChunk bs => exact .feeds bs (.inr (.inr ⟨bs, rfl⟩)) (exec_feedChunk bs)
  | resync => exact .resyncs fun _ => rfl
  | opReset => exact .resets rfl fun _ => rfl

/-! ## The obligations -/

/-- Settles O26: what an instruction does is a function of the codec, and its results replace the earlier ones. -/
theorem resultsAreNeverRead : Obligations.ResultsAreNeverRead := by
  intro i s rs
  cases meaning_cases i with
  | transmits f _ h => rw [h, h]; rfl
  | answers r h => rw [h, h]; rfl
  | feeds bs _ h => rw [h, h]; cases feedBytes cfg bs s.codec <;> rfl
  | resyncs h => rw [h, h]; rfl
  | resets _ h => rw [h, h]; rfl
  | refused h => rw [h, h]

/-- Settles O16. -/
theorem shortChunksAreFeeds : Obligations.ShortChunksAreFeeds :=
  fun s b => ⟨(exec_feed b s).symm, rfl⟩

end Sys2Proof.Machine.Meanings
end

section
/-! The invariants between operations (10_state R24, 20_memory R43): under every valid configuration a `FEED` from a state
that meets them ends without a fault and keeps them, so a chunk does, so every instruction and every step do. -/

namespace Sys2Proof.Machine.Invariants

open Sys2Proof Sys2Proof.Machine Sys2Proof.Machine.Meanings

/-! ## The invariants of one codec -/

section
variable {c : Config} {k : Codec}

/-- A parser that awaits a first byte meets the invariants if its buffer does. -/
theorem inv_of_awaiting (hc : c.Valid) (h0 : k.rxOff = 0) (hwf : k.rxBuf.wf = true)
    (hin : ∀ x ∈ k.rxBuf, x.1 < c.bufCap) : k.Inv c where
  rxOff_lt := by
    have := hc.two_le_maxPayload
    simp only [h0, Config.maxFrame]
    omega
  firstByte := by omega
  rxLen_stored := by omega
  rxLen_le := by omega
  incomplete := by omega
  stored := by omega
  canonical := hwf
  inside := hin

theorem rxOff_lt_bufCap (hc : c.Valid) (hk : k.Inv c) : k.rxOff < c.bufCap :=
  hk.rxOff_lt.trans_le hc.maxFrame_le_bufCap

/-- A write inside the capacity keeps the buffer inside it. -/
theorem inside_write {a : Nat} {b : Byte} {m : Memory} (ha : a < c.bufCap) (hm : ∀ x ∈ m, x.1 < c.bufCap) :
    ∀ x ∈ m.write a b, x.1 < c.bufCap := by
  intro x hx
  obtain rfl | hx := Memory.mem_write hx
  · exact ha
  · exact hm x hx

/-- The bytes below the offset are stored, and so is the one at it, once it is written. -/
theorem stored_write (hk : k.Inv c) (b : Byte) {a : Nat} (ha : a ≤ k.rxOff) :
    ∃ v, (k.rxBuf.write k.rxOff b).read a = some v := by
  rw [Memory.read_write]
  split
  · exact ⟨b, rfl⟩
  · exact hk.stored a (by omega)

/-- A legal first byte is a message type. -/
theorem messageType_of_low7 {b : Byte} (hb : b.extractLsb' 0 7 = 0) : b = mtCommand ∨ b = mtEvent :=
  FeedOneByte.and_0x7F_eq_zero_iff_messageType.mp (FeedOneByte.extractLsb'_low7_eq_zero_iff.mp hb)

/-- Storing a byte that neither is rejected nor completes the frame keeps the invariants. -/
theorem inv_store (hc : c.Valid) (hk : k.Inv c) {b : Byte} (h0 : k.rxOff = 0 → b.extractLsb' 0 7 = 0)
    (h1 : k.rxOff = 1 → b.toNat ≤ c.maxPayload)
    (hn : ¬ (3 ≤ k.rxOff ∧ k.rxOff + 1 = k.rxLen.toNat + hdrLen)) : (k.store b).Inv c where
  rxOff_lt := by
    have hmax := hc.two_le_maxPayload
    simp only [Codec.store_rxOff, Config.maxFrame, hdrLen] at *
    by_cases h2 : 2 ≤ k.rxOff
    · have := hk.incomplete h2
      have := hk.rxLen_le h2
      simp only [hdrLen] at *
      omega
    · omega
  firstByte := fun _ => by
    rw [Codec.store_rxBuf, Memory.read_write]
    by_cases hz : k.rxOff = 0
    · simpa [hz] using messageType_of_low7 (h0 hz)
    · rw [if_neg (Ne.symm hz)]
      exact hk.firstByte (by omega)
  rxLen_stored := fun h2 => by
    simp only [Codec.store_rxOff, Codec.store_rxBuf, Codec.store_rxLen, Memory.read_write] at *
    by_cases ho : k.rxOff = 1
    · simp [ho]
    · rw [if_neg (Ne.symm ho), if_neg ho]
      exact hk.rxLen_stored (by omega)
  rxLen_le := fun h2 => by
    simp only [Codec.store_rxOff, Codec.store_rxLen] at *
    split
    · exact h1 ‹_›
    · exact hk.rxLen_le (by omega)
  incomplete := fun h2 => by
    simp only [Codec.store_rxOff, Codec.store_rxLen, hdrLen] at *
    split
    · omega
    · have := hk.incomplete (by omega)
      simp only [hdrLen] at this
      omega
  stored := fun a ha => stored_write hk b (Nat.lt_succ_iff.mp ha)
  canonical := Memory.write_wf _ b hk.canonical
  inside := inside_write (rxOff_lt_bufCap hc hk) hk.inside

/-- The frame that the last byte completes can be read. -/
theorem completeFrame_total (hc : c.Valid) (hk : k.Inv c) (b : Byte) (h3 : 3 ≤ k.rxOff)
    (he : k.rxOff + 1 = k.rxLen.toNat + hdrLen) :
    ∃ r k', completeFrame c (k.store b) = .ok (r, k') ∧ k'.Inv c := by
  have hcap := rxOff_lt_bufCap hc hk
  have hread : ∀ a, a ≤ k.rxOff → ∃ v, bufRead c a (k.store b).rxBuf = .ok v := fun a ha => by
    obtain ⟨v, hv⟩ := stored_write hk b ha
    exact ⟨v, bufRead_ok (by omega) hv⟩
  have hlen : (k.store b).rxLen = k.rxLen := by
    rw [Codec.store_rxLen, if_neg (by omega)]
  obtain ⟨mt, hmt⟩ := hread 0 (by omega)
  obtain ⟨cls, hcls⟩ := hread 2 (by omega)
  obtain ⟨code, hcode⟩ := hread 3 (by omega)
  obtain ⟨p, hp⟩ : ∃ p, bufReadN c (k.store b).rxBuf hdrLen (k.store b).rxLen.toNat = .ok p := by
    rw [hlen]
    exact bufReadN_total (fun i hi => stored_write hk b (by omega)) (by omega)
  refine ⟨_, _, completeFrame_ok hmt hcls hcode hp, inv_of_awaiting hc rfl ?_ ?_⟩
  · exact Memory.write_wf _ b hk.canonical
  · exact inside_write hcap hk.inside

end

/-! ## `FEED` and `FEED_CHUNK` -/

theorem feedByte_keeps_inv {c : Config} (hc : c.Valid) {k : Codec} (hk : k.Inv c) (b : Byte) :
    ∃ r k', feedByte c b k = .ok (r, k') ∧ k'.Inv c := by
  have hcap := rxOff_lt_bufCap hc hk
  by_cases hfirst : k.rxOff = 0 ∧ b.extractLsb' 0 7 ≠ 0
  · exact ⟨_, k, feedByte_rejected hfirst.1 hfirst.2, hk⟩
  by_cases hlen : k.rxOff = 1 ∧ c.maxPayload < b.toNat
  · refine ⟨_, _, feedByte_illegal (hlen.1 ▸ hcap) hlen.1 hlen.2, inv_of_awaiting hc rfl ?_ ?_⟩
    · exact Memory.write_wf 1 b hk.canonical
    · exact inside_write (hlen.1 ▸ hcap) hk.inside
  by_cases hlast : 3 ≤ k.rxOff ∧ k.rxOff + 1 = k.rxLen.toNat + hdrLen
  · rw [feedByte_completing hcap hlast.1 hlast.2]
    exact completeFrame_total hc hk b hlast.1 hlast.2
  have h0 : k.rxOff = 0 → b.extractLsb' 0 7 = 0 := fun h => not_not.mp fun hb => hfirst ⟨h, hb⟩
  have h1 : k.rxOff = 1 → b.toNat ≤ c.maxPayload := fun h => Nat.not_lt.mp fun hb => hlen ⟨h, hb⟩
  exact ⟨_, _, feedByte_stored hcap h0 h1 hlast, inv_store hc hk h0 h1 hlast⟩

/-- A chunk from a state that meets the invariants answers each byte and keeps them. -/
theorem feedBytes_keeps_inv {c : Config} (hc : c.Valid) (bs : Bytes) {k : Codec} (hk : k.Inv c) :
    ∃ rs k', feedBytes c bs k = .ok (rs, k') ∧ rs.length = bs.length ∧ k'.Inv c := by
  induction bs generalizing k with
  | nil => exact ⟨[], k, rfl, rfl, hk⟩
  | cons b bs ih =>
    obtain ⟨r, k₁, h₁, hk₁⟩ := feedByte_keeps_inv hc hk b
    obtain ⟨rs, k₂, h₂, hl, hk₂⟩ := ih hk₁
    exact ⟨r :: rs, k₂, feedBytes_cons h₁ h₂, by simp [hl], hk₂⟩

/-- A completed frame writes nothing to the output log. -/
theorem completeFrame_keeps_txLog {c : Config} {k k' : Codec} {r : Result} (h : completeFrame c k = .ok (r, k')) :
    k'.txLog = k.txLog := by
  obtain ⟨mt, cls, code, p, -, -, -, -, hx⟩ := completeFrame_eq_ok h
  obtain ⟨-, rfl⟩ := Prod.mk.inj hx
  rfl

theorem feedByte_keeps_txLog {c : Config} {b : Byte} {k k' : Codec} {r : Result}
    (h : feedByte c b k = .ok (r, k')) : k'.txLog = k.txLog := by
  cases feedByte_cases h with
  | rejected _ _ _ hk => rw [hk]
  | stored _ _ _ _ _ hk => rw [hk]; rfl
  | illegal _ _ _ hk => rw [hk]
  | completed _ _ _ hx => exact (completeFrame_keeps_txLog hx :)

theorem feedBytes_keeps_txLog {c : Config} {bs : Bytes} {k k' : Codec} {rs : List Result}
    (h : feedBytes c bs k = .ok (rs, k')) : k'.txLog = k.txLog := by
  induction bs generalizing k rs with
  | nil =>
    obtain ⟨-, rfl⟩ := Prod.mk.inj (Except.ok.inj h)
    rfl
  | cons b bs ih =>
    obtain ⟨r, k₁, rs', h₁, h₂, -⟩ := feedBytes_cons_ok h
    exact (ih h₂).trans (feedByte_keeps_txLog h₁)

/-! ## Every instruction and every step -/

theorem reset_inv : State.reset.Inv :=
  inv_of_awaiting cfg_valid rfl reset_memory_wf nofun

/-- The invariants do not speak of `busy` and of the output log. -/
theorem inv_with_ports {c : Config} {k : Codec} (hk : k.Inv c) (v : Bool) (l : List Bytes) :
    Codec.Inv c { k with busy := v, txLog := l } :=
  { hk with }

/-- An instruction from a state that meets the invariants ends in one that does, or is refused. -/
theorem exec_keeps_inv (i : Instr) {s : State} (hs : s.Inv) :
    (∃ t, exec i s = .next t ∧ t.Inv) ∨ ∃ r, exec i s = .refused r := by
  cases meaning_cases i with
  | transmits f _ h => exact .inl ⟨_, h s, inv_with_ports hs _ _⟩
  | answers r h => exact .inl ⟨_, h s, hs⟩
  | feeds bs _ h =>
    obtain ⟨rs, k', hk', -, hinv⟩ := feedBytes_keeps_inv cfg_valid bs hs
    exact .inl ⟨s.deliver k' rs, by rw [h, hk', finishAll_ok], hinv⟩
  | resyncs h => exact .inl ⟨_, h s, inv_of_awaiting cfg_valid rfl hs.canonical hs.inside⟩
  | resets _ h => exact .inl ⟨_, h s, reset_inv⟩
  | refused h => exact .inr ⟨_, h s⟩

/-- So does a step. -/
theorem step_keeps_inv {s : State} (hs : s.Inv) : (∃ t, step s = .next t ∧ t.Inv) ∨ ∃ r, step s = .refused r := by
  obtain ⟨k, _ | ⟨r, rest⟩, rs⟩ := s
  · exact .inl ⟨_, rfl, hs⟩
  · cases hr : r.instr with
    | ok i =>
      have hstep : step ⟨k, r :: rest, rs⟩ = exec i ⟨k, rest, rs⟩ := by simp [step, State.fetch, hr]
      rw [hstep]
      exact exec_keeps_inv i hs
    | error e => exact .inr ⟨.notACommandFrame e, by simp [step, State.fetch, hr]⟩

/-! ## The obligations -/

/-- Settles O22: the one next state a step can have meets the invariants. -/
theorem everyStepKeepsTheInvariants : Obligations.EveryStepKeepsTheInvariants := by
  intro s t hs hstep
  obtain ⟨t', ht', hinv⟩ | ⟨r, hr⟩ := step_keeps_inv hs
  · obtain rfl := Host.Outcome.next.inj (hstep.symm.trans ht')
    exact hinv
  · simp [hstep] at hr

/-- Settles O23: a step ends in a next state or in a refusal. -/
theorem noStepFaultsFromTheInvariants : Obligations.NoStepFaultsFromTheInvariants := by
  intro s hs f hf
  obtain ⟨t, ht, -⟩ | ⟨r, hr⟩ := step_keeps_inv hs
  · simp [hf] at ht
  · simp [hf] at hr

/-- Settles O24. -/
theorem feedKeepsTheInvariantsUnderEveryConfiguration : Obligations.FeedKeepsTheInvariantsUnderEveryConfiguration :=
  fun _ hc _ b hk => feedByte_keeps_inv hc hk b

/-- Settles O17. -/
theorem feedsCompleteFromTheInvariant : Obligations.FeedsCompleteFromTheInvariant := by
  refine fun s hs => ⟨fun b => ?_, fun bs => ?_⟩
  · obtain ⟨r, k', hk', hinv⟩ := feedByte_keeps_inv cfg_valid hs b
    exact ⟨_, r, FeedOneByte.exec_feed_ok hk', rfl, hinv, rfl, feedByte_keeps_txLog hk'⟩
  · obtain ⟨rs, k', hk', hl, hinv⟩ := feedBytes_keeps_inv cfg_valid bs hs
    refine ⟨s.deliver k' rs, ?_, hl, hinv, rfl, feedBytes_keeps_txLog hk'⟩
    rw [exec_feedChunk, hk', finishAll_ok]

/-- Settles O21. -/
theorem invariantsHoldAtReset : Obligations.InvariantsHoldAtReset := reset_inv

end Sys2Proof.Machine.Invariants
end

section
/-! What one `FEED` and one chunk answer (41_parser R145, R146, R148): at most one record and only at the end of a frame, the
ways back to offset 0, and chunks put together. -/

namespace Sys2Proof.Machine.FeedAnswers

open Sys2Proof Sys2Proof.Machine Sys2Proof.Machine.Meanings

/-! ## One `FEED` -/

/-- A payload that is decoded to a record answers `OK`. -/
theorem decodeFormat_status_of_record {c : Config} {fmt : DecFormat} {p : Bytes} {kd : Kind}
    (h : (decodeFormat c fmt p kd).out ≠ .none) : (decodeFormat c fmt p kd).status = .ok := by
  by_cases hp : p.length < fmt.need c
  · rw [decodeFormat_short kd hp] at h
    exact absurd rfl h
  · rw [decodeFormat_ok kd (Nat.not_lt.mp hp)]

/-- The dispatch decoder answers a record only with `OK`. -/
theorem dispatch_status_of_record {c : Config} {mt code : Byte} {p : Bytes} (h : (dispatch c mt code p).out ≠ .none) :
    (dispatch c mt code p).status = .ok := by
  unfold dispatch at h ⊢
  split at h
  · next hmt =>
    rw [if_pos hmt]
    cases hf : findCmd c code with
    | none => rfl
    | some m => exact decodeFormat_status_of_record (by simpa [hf] using h)
  · next hmt =>
    rw [if_neg hmt]
    cases hf : findEvt c code with
    | none => rfl
    | some m => exact decodeFormat_status_of_record (by simpa [hf] using h)

/-- A completed frame answers a record only with `OK`, and the parser awaits a first byte. -/
theorem completeFrame_answers {c : Config} {k k' : Codec} {r : Result} (h : completeFrame c k = .ok (r, k')) :
    (r.out ≠ .none → r.status = .ok) ∧ k'.rxOff = 0 := by
  obtain ⟨mt, cls, code, p, -, -, -, -, hx⟩ := completeFrame_eq_ok h
  obtain ⟨rfl, rfl⟩ := Prod.mk.inj hx
  refine ⟨fun hr => ?_, rfl⟩
  split at hr
  · next hcls =>
    rw [if_pos hcls]
    exact dispatch_status_of_record hr
  · exact absurd rfl hr

/-! ## Chunks put together -/

theorem feedBytes_append_error {c : Config} {xs : Bytes} {k : Codec} {f : Fault} (ys : Bytes)
    (h : feedBytes c xs k = .error f) : feedBytes c (xs ++ ys) k = .error f := by
  induction xs generalizing k with
  | nil => simp at h
  | cons b xs ih =>
    rw [List.cons_append]
    cases h₁ : feedByte c b k with
    | error f₁ => simpa [feedBytes, h₁] using h
    | ok x =>
      cases h₂ : feedBytes c xs x.2 with
      | error f₂ =>
        obtain rfl : f₂ = f := by simpa [feedBytes, h₁, h₂] using h
        simp [feedBytes, h₁, ih h₂]
      | ok y => simp [feedBytes, h₁, h₂] at h

theorem feedBytes_append_ok {c : Config} {xs : Bytes} {k k' : Codec} {rs : List Result} (ys : Bytes)
    (h : feedBytes c xs k = .ok (rs, k')) :
    feedBytes c (xs ++ ys) k = (feedBytes c ys k').map fun x => (rs ++ x.1, x.2) := by
  induction xs generalizing k rs with
  | nil =>
    obtain ⟨rfl, rfl⟩ := Prod.mk.inj (Except.ok.inj h)
    cases hy : feedBytes c ys k <;> simp [hy, Except.map]
  | cons b xs ih =>
    obtain ⟨r, k₁, rs', h₁, h₂, rfl⟩ := feedBytes_cons_ok h
    rw [List.cons_append]
    cases hy : feedBytes c ys k' <;> simp [feedBytes, h₁, ih h₂, hy, Except.map]

/-! ## The obligations -/

/-- Settles O12. -/
theorem illegalLengthByteAbandonsTheFrame : Obligations.IllegalLengthByteAbandonsTheFrame := by
  intro s b h1 hb
  have hfeed := feedByte_illegal (c := cfg) (by decide) h1 hb
  exact ⟨_, FeedOneByte.exec_feed_ok hfeed, rfl, rfl, rfl, rfl, rfl, rfl, Memory.read_write s.codec.rxBuf 1 b⟩

/-- Settles O18: of the ways a `FEED` can end, the completion of a frame is the one with an output. -/
theorem feedYieldsAtMostOneRecord : Obligations.FeedYieldsAtMostOneRecord := by
  intro s t b hexec
  obtain ⟨r, k, hfeed, rfl⟩ := FeedOneByte.exec_feed_next hexec
  refine ⟨r, rfl, fun hout => ?_⟩
  cases feedByte_cases hfeed with
  | rejected _ _ hr _ => simp [hr] at hout
  | stored _ _ _ _ hr _ => simp [hr] at hout
  | illegal _ _ hr _ => simp [hr] at hout
  | completed _ h3 he hx =>
    obtain ⟨hok, hoff⟩ := completeFrame_answers hx
    exact ⟨hok hout, h3, he, hoff⟩

/-- Settles O19: a stored byte moves the offset on by one, and the three other ways a `FEED` can end leave it at 0. -/
theorem feedAdvancesTheOffsetByOneOrToZero : Obligations.FeedAdvancesTheOffsetByOneOrToZero := by
  intro s t b hexec
  obtain ⟨r, k, hfeed, rfl⟩ := FeedOneByte.exec_feed_next hexec
  rw [State.deliver_codec]
  cases feedByte_cases hfeed with
  | rejected h0 hb _ hk =>
    subst hk
    exact ⟨.inr h0, fun _ => .inl ⟨h0, mt FeedOneByte.extractLsb'_low7_eq_zero_iff.mpr hb, rfl⟩⟩
  | stored _ _ _ _ _ hk =>
    subst hk
    exact ⟨.inl rfl, nofun⟩
  | illegal h1 hb _ hk =>
    subst hk
    exact ⟨.inr rfl, fun _ => .inr (.inl ⟨h1, hb⟩)⟩
  | completed _ h3 he hx => exact ⟨.inr (completeFrame_answers hx).2, fun _ => .inr (.inr ⟨h3, he⟩)⟩

/-- Settles O15, by how the first chunk ends and then how the second does. -/
theorem chunkBoundariesMeanNothing : Obligations.ChunkBoundariesMeanNothing := by
  intro s xs ys
  simp only [exec_feedChunk]
  cases hx : feedBytes cfg xs s.codec with
  | error f => rw [feedBytes_append_error ys hx]; rfl
  | ok x =>
    rw [feedBytes_append_ok ys hx]
    cases hy : feedBytes cfg ys x.2 <;> simp [hy, Except.map, finishAll, State.deliver]

end Sys2Proof.Machine.FeedAnswers
end

section
/-! What the codec does not read (10_state R25, R31, 20_memory R46): `busy`, the output log, stale bytes of the buffer and a
stale length. Each is a statement about two runs, proved of one `FEED`, then of a chunk, then of every instruction. -/

namespace Sys2Proof.Machine.Unread

open Sys2Proof Sys2Proof.Machine Sys2Proof.Machine.Meanings Sys2Proof.Machine.Invariants

/-! ## `busy` and the output log -/

/-- A codec with another `busy` and another output log. -/
def withPorts (v : Bool) (l : List Bytes) (k : Codec) : Codec := { k with busy := v, txLog := l }

theorem withPorts_self (l : List Bytes) (k : Codec) : withPorts k.busy l k = { k with txLog := l } := rfl

/-- A completed frame leaves `busy`, or clears it because the frame's first byte is 0x00 (R151). -/
theorem completeFrame_busy {c : Config} {k k' : Codec} {r : Result} (h : completeFrame c k = .ok (r, k')) :
    k'.busy = k.busy ∨ k'.busy = false ∧ k.rxBuf.read 0 = some mtCommand := by
  obtain ⟨mt, cls, code, p, hmt, -, -, -, hx⟩ := completeFrame_eq_ok h
  obtain ⟨-, rfl⟩ := Prod.mk.inj hx
  by_cases hc : mt = mtCommand
  · subst hc
    exact .inr ⟨rfl, (bufRead_eq_ok hmt).2⟩
  · exact .inl (if_neg hc)

/-- A `FEED` leaves `busy`, or clears it by completing a frame whose stored first byte is 0x00. -/
theorem feedByte_busy {c : Config} {b : Byte} {k k' : Codec} {r : Result} (h : feedByte c b k = .ok (r, k')) :
    k'.busy = k.busy ∨ k'.busy = false ∧ k.rxBuf.read 0 = some mtCommand ∧ 3 ≤ k.rxOff ∧
      k.rxOff + 1 = k.rxLen.toNat + hdrLen := by
  cases feedByte_cases h with
  | rejected _ _ _ hk => exact .inl (by rw [hk])
  | stored _ _ _ _ _ hk => exact .inl (by rw [hk, Codec.store_busy])
  | illegal _ _ _ hk => exact .inl (by rw [hk])
  | completed _ h3 he hx =>
    refine (completeFrame_busy hx).imp_right fun ⟨hclear, hmt⟩ => ⟨hclear, ?_, h3, he⟩
    rwa [Codec.store_rxBuf, Memory.read_write, if_neg (by omega)] at hmt

/-- A chunk leaves `busy`, or clears it. -/
theorem feedBytes_busy {c : Config} {bs : Bytes} {k k' : Codec} {rs : List Result}
    (h : feedBytes c bs k = .ok (rs, k')) : k'.busy = k.busy ∨ k'.busy = false := by
  induction bs generalizing k rs with
  | nil =>
    obtain ⟨-, rfl⟩ := Prod.mk.inj (Except.ok.inj h)
    exact .inl rfl
  | cons b bs ih =>
    obtain ⟨r, k₁, rs', h₁, h₂, -⟩ := feedBytes_cons_ok h
    obtain heq | hclear := ih h₂
    · rw [heq]
      exact (feedByte_busy h₁).imp_right And.left
    · exact .inr hclear

/-- With another `busy` and another output log a `FEED` does the same, and leaves that log. -/
theorem feedByte_withPorts {b : Byte} {k k' : Codec} {r : Result} (h : feedByte cfg b k = .ok (r, k')) (v : Bool)
    (l : List Bytes) :
    ∃ v', feedByte cfg b (withPorts v l k) = .ok (r, withPorts v' l k') ∧ (v = k.busy → v' = k'.busy) := by
  cases feedByte_cases h with
  | rejected h0 hb hr hk =>
    subst hr hk
    exact ⟨v, feedByte_rejected h0 hb, id⟩
  | stored hcap h0 h1 hn hr hk =>
    subst hr hk
    exact ⟨v, feedByte_stored hcap h0 h1 hn, id⟩
  | illegal h1 hb hr hk =>
    subst hr hk
    exact ⟨v, feedByte_illegal (by decide) h1 hb, id⟩
  | completed hcap h3 he hx =>
    obtain ⟨mt, cls, code, p, hmt, hcls, hcode, hp, hrk⟩ := completeFrame_eq_ok hx
    obtain ⟨rfl, rfl⟩ := Prod.mk.inj hrk
    refine ⟨busyAfterFrame mt v, ?_, congrArg (busyAfterFrame mt)⟩
    rw [feedByte_completing (k := withPorts v l k) hcap h3 he]
    exact completeFrame_ok (k := (withPorts v l k).store b) hmt hcls hcode hp

/-- So does a chunk. -/
theorem feedBytes_withPorts {bs : Bytes} {k k' : Codec} {rs : List Result} (h : feedBytes cfg bs k = .ok (rs, k'))
    (v : Bool) (l : List Bytes) :
    ∃ v', feedBytes cfg bs (withPorts v l k) = .ok (rs, withPorts v' l k') ∧ (v = k.busy → v' = k'.busy) := by
  induction bs generalizing k rs v with
  | nil =>
    obtain ⟨rfl, rfl⟩ := Prod.mk.inj (Except.ok.inj h)
    exact ⟨v, rfl, id⟩
  | cons b bs ih =>
    obtain ⟨r, k₁, rs', h₁, h₂, rfl⟩ := feedBytes_cons_ok h
    obtain ⟨v₁, hv₁, hb₁⟩ := feedByte_withPorts h₁ v l
    obtain ⟨v₂, hv₂, hb₂⟩ := ih h₂ v₁
    exact ⟨v₂, feedBytes_cons hv₁ hv₂, fun e => hb₂ (hb₁ e)⟩

/-! ## Stale bytes and a stale length -/

/-- Two parsers that await a first byte differ in what can be seen only in `busy` and the output log. -/
theorem sameVisible_of_awaiting {k₁ k₂ : Codec} (h₁ : k₁.rxOff = 0) (h₂ : k₂.rxOff = 0) (hb : k₁.busy = k₂.busy)
    (ht : k₁.txLog = k₂.txLog) : k₁.SameVisible k₂ where
  rxOff_eq := h₁.trans h₂.symm
  busy_eq := hb
  txLog_eq := ht
  rxLen_eq := by omega
  bytes_eq := by omega

section
variable {k₁ k₂ : Codec} (hv : k₁.SameVisible k₂)
include hv

/-- The byte stored at the offset joins the bytes that can be seen. -/
theorem read_write_eq (b : Byte) {a : Nat} (ha : a ≤ k₁.rxOff) :
    (k₁.rxBuf.write k₁.rxOff b).read a = (k₂.rxBuf.write k₂.rxOff b).read a := by
  simp only [Memory.read_write, ← hv.rxOff_eq]
  split
  · rfl
  · exact hv.bytes_eq a (by omega)

theorem sameVisible_store (b : Byte) : (k₁.store b).SameVisible (k₂.store b) where
  rxOff_eq := by simp [hv.rxOff_eq]
  busy_eq := hv.busy_eq
  txLog_eq := hv.txLog_eq
  rxLen_eq := fun h2 => by
    simp only [Codec.store_rxOff, Codec.store_rxLen, ← hv.rxOff_eq] at *
    split
    · rfl
    · exact hv.rxLen_eq (by omega)
  bytes_eq := fun _ ha => read_write_eq hv b (Nat.lt_succ_iff.mp ha)

/-- A completion reads only what can be seen of the frame it completes. -/
theorem completeFrame_sameVisible {c : Config} {b : Byte} {k₁' : Codec} {r : Result} (h3 : 3 ≤ k₁.rxOff)
    (he : k₁.rxOff + 1 = k₁.rxLen.toNat + hdrLen) (h : completeFrame c (k₁.store b) = .ok (r, k₁')) :
    ∃ k₂', completeFrame c (k₂.store b) = .ok (r, k₂') ∧ k₁'.SameVisible k₂' := by
  have hread : ∀ a, a ≤ k₁.rxOff → bufRead c a (k₂.store b).rxBuf = bufRead c a (k₁.store b).rxBuf := fun a ha => by
    unfold bufRead
    rw [Codec.store_rxBuf, Codec.store_rxBuf, read_write_eq hv b ha]
  have hlen : (k₂.store b).rxLen = (k₁.store b).rxLen := by
    rw [Codec.store_rxLen, Codec.store_rxLen, ← hv.rxOff_eq, hv.rxLen_eq (by omega)]
  have hlen₁ : (k₁.store b).rxLen = k₁.rxLen := by
    rw [Codec.store_rxLen, if_neg (by omega)]
  have hreadN : bufReadN c (k₂.store b).rxBuf hdrLen (k₂.store b).rxLen.toNat =
      bufReadN c (k₁.store b).rxBuf hdrLen (k₁.store b).rxLen.toNat := by
    rw [hlen]
    refine bufReadN_congr fun i hi => (read_write_eq hv b ?_).symm
    rw [hlen₁] at hi
    omega
  obtain ⟨mt, cls, code, p, hmt, hcls, hcode, hp, hx⟩ := completeFrame_eq_ok h
  obtain ⟨rfl, rfl⟩ := Prod.mk.inj hx
  refine ⟨_, completeFrame_ok ((hread 0 (by omega)).trans hmt) ((hread 2 (by omega)).trans hcls)
    ((hread 3 (by omega)).trans hcode) (hreadN.trans hp), sameVisible_of_awaiting rfl rfl ?_ hv.txLog_eq⟩
  exact congrArg (busyAfterFrame mt) hv.busy_eq

/-- Two codecs that look the same answer a `FEED` the same, and look the same after it. -/
theorem feedByte_sameVisible {b : Byte} {k₁' : Codec} {r : Result} (h : feedByte cfg b k₁ = .ok (r, k₁')) :
    ∃ k₂', feedByte cfg b k₂ = .ok (r, k₂') ∧ k₁'.SameVisible k₂' := by
  have hoff := hv.rxOff_eq
  cases feedByte_cases h with
  | rejected h0 hb hr hk =>
    subst hr hk
    exact ⟨k₂, feedByte_rejected (hoff ▸ h0) hb, hv⟩
  | stored hcap h0 h1 hn hr hk =>
    subst hr hk
    refine ⟨k₂.store b, feedByte_stored (hoff ▸ hcap) (hoff ▸ h0) (hoff ▸ h1) ?_, sameVisible_store hv b⟩
    rintro ⟨h3, he⟩
    rw [← hoff] at h3 he
    exact hn ⟨h3, by rw [hv.rxLen_eq (by omega), he]⟩
  | illegal h1 hb hr hk =>
    subst hr hk
    exact ⟨_, feedByte_illegal (by decide) (hoff ▸ h1) hb,
      sameVisible_of_awaiting rfl rfl hv.busy_eq hv.txLog_eq⟩
  | completed hcap h3 he hx =>
    rw [feedByte_completing (hoff ▸ hcap) (hoff ▸ h3) (by rw [← hoff, he, hv.rxLen_eq (by omega)])]
    exact completeFrame_sameVisible hv h3 he hx

end

/-- So do they a chunk. -/
theorem feedBytes_sameVisible {bs : Bytes} {k₁ k₂ k₁' : Codec} {rs : List Result} (hv : k₁.SameVisible k₂)
    (h : feedBytes cfg bs k₁ = .ok (rs, k₁')) : ∃ k₂', feedBytes cfg bs k₂ = .ok (rs, k₂') ∧ k₁'.SameVisible k₂' := by
  induction bs generalizing k₁ k₂ rs with
  | nil =>
    obtain ⟨rfl, rfl⟩ := Prod.mk.inj (Except.ok.inj h)
    exact ⟨k₂, rfl, hv⟩
  | cons b bs ih =>
    obtain ⟨r, m₁, rs', h₁, h₂, rfl⟩ := feedBytes_cons_ok h
    obtain ⟨m₂, hm₂, hvm⟩ := feedByte_sameVisible hv h₁
    obtain ⟨k₂', hk₂', hvk⟩ := ih hvm h₂
    exact ⟨k₂', feedBytes_cons hm₂ hk₂', hvk⟩

/-! ## The obligations -/

/-- Settles O25, by what the instruction does to the codec: only the parser reads the buffer, and only what can be seen of
it. -/
theorem staleBytesAreUnobservable : Obligations.StaleBytesAreUnobservable := by
  intro i s₁ s₂ t₁ hv hreq hexec
  cases meaning_cases i with
  | transmits f _ h =>
    obtain rfl := Host.Outcome.next.inj ((h s₁).symm.trans hexec)
    exact ⟨_, h s₂, rfl, { hv with busy_eq := rfl, txLog_eq := congrArg (· ++ [f]) hv.txLog_eq }, hreq⟩
  | answers r h =>
    obtain rfl := Host.Outcome.next.inj ((h s₁).symm.trans hexec)
    exact ⟨_, h s₂, rfl, hv, hreq⟩
  | feeds bs _ h =>
    obtain ⟨rs, k, hk, rfl⟩ := finishAll_next ((h s₁).symm.trans hexec)
    obtain ⟨k₂, hk₂, hv'⟩ := feedBytes_sameVisible hv hk
    exact ⟨s₂.deliver k₂ rs, by rw [h, hk₂, finishAll_ok], rfl, hv', hreq⟩
  | resyncs h =>
    obtain rfl := Host.Outcome.next.inj ((h s₁).symm.trans hexec)
    exact ⟨_, h s₂, rfl, sameVisible_of_awaiting rfl rfl hv.busy_eq hv.txLog_eq, hreq⟩
  | resets _ h =>
    obtain rfl := Host.Outcome.next.inj ((h s₁).symm.trans hexec)
    exact ⟨_, h s₂, rfl, sameVisible_of_awaiting rfl rfl rfl rfl, hreq⟩
  | refused h => simp [h] at hexec

/-- Settles O27, by what the instruction does to the codec: a transmission appends its frame, and nothing else writes or reads
the log. -/
theorem outputLogOnlyGrowsAndIsNeverRead : Obligations.OutputLogOnlyGrowsAndIsNeverRead := by
  intro i s t hexec hi
  cases meaning_cases i with
  | transmits f _ h =>
    obtain rfl := Host.Outcome.next.inj ((h s).symm.trans hexec)
    exact ⟨[f], rfl, le_rfl, fun l => by rw [h]; rfl⟩
  | answers r h =>
    obtain rfl := Host.Outcome.next.inj ((h s).symm.trans hexec)
    exact ⟨[], (List.append_nil _).symm, Nat.zero_le 1, fun l => by rw [h, List.append_nil]; rfl⟩
  | feeds bs _ h =>
    obtain ⟨rs, k, hk, rfl⟩ := finishAll_next ((h s).symm.trans hexec)
    refine ⟨[], (feedBytes_keeps_txLog hk).trans (List.append_nil _).symm, Nat.zero_le 1, fun l => ?_⟩
    obtain ⟨v, hv, hbusy⟩ := feedBytes_withPorts hk s.codec.busy l
    obtain rfl := hbusy rfl
    rw [withPorts_self, withPorts_self] at hv
    rw [h, hv, List.append_nil]
    rfl
  | resyncs h =>
    obtain rfl := Host.Outcome.next.inj ((h s).symm.trans hexec)
    exact ⟨[], (List.append_nil _).symm, Nat.zero_le 1, fun l => by rw [h, List.append_nil]; rfl⟩
  | resets hreset h => exact absurd hreset hi
  | refused h => simp [h] at hexec

/-- Settles O29: the parser is `feedBytes_withPorts`, and no other operation looks at `busy`. -/
theorem busyIsNeverRead : Obligations.BusyIsNeverRead := by
  intro i s t v hexec
  cases meaning_cases i with
  | transmits f _ h =>
    obtain rfl := Host.Outcome.next.inj ((h s).symm.trans hexec)
    exact ⟨_, h _, rfl, rfl, rfl⟩
  | answers r h =>
    obtain rfl := Host.Outcome.next.inj ((h s).symm.trans hexec)
    exact ⟨_, h _, rfl, rfl, rfl⟩
  | feeds bs _ h =>
    obtain ⟨rs, k, hk, rfl⟩ := finishAll_next ((h s).symm.trans hexec)
    obtain ⟨v', hv', -⟩ := feedBytes_withPorts hk v k.txLog
    rw [feedBytes_keeps_txLog hk] at hv'
    refine ⟨_, (h _).trans (congrArg (finishAll _) hv'), rfl, rfl, ?_⟩
    rw [← feedBytes_keeps_txLog hk]
    rfl
  | resyncs h =>
    obtain rfl := Host.Outcome.next.inj ((h s).symm.trans hexec)
    exact ⟨_, h _, rfl, rfl, rfl⟩
  | resets _ h =>
    obtain rfl := Host.Outcome.next.inj ((h s).symm.trans hexec)
    exact ⟨_, h _, rfl, rfl, rfl⟩
  | refused h => simp [h] at hexec

/-- Settles O28: a transmission sets `busy`, bytes from the device and a reset clear it if they change it, and the other
operations leave it. -/
theorem onlyTransmissionSetsBusy : Obligations.OnlyTransmissionSetsBusy := by
  constructor
  · intro i s t hexec hne
    cases meaning_cases i with
    | transmits f hi h =>
      obtain rfl := Host.Outcome.next.inj ((h s).symm.trans hexec)
      exact .inl ⟨rfl, hi⟩
    | answers r h =>
      obtain rfl := Host.Outcome.next.inj ((h s).symm.trans hexec)
      exact absurd rfl hne
    | feeds bs hi h =>
      obtain ⟨rs, k, hk, rfl⟩ := finishAll_next ((h s).symm.trans hexec)
      exact .inr ⟨(feedBytes_busy hk).resolve_left hne, .inr hi⟩
    | resyncs h =>
      obtain rfl := Host.Outcome.next.inj ((h s).symm.trans hexec)
      exact absurd rfl hne
    | resets hi h =>
      obtain rfl := Host.Outcome.next.inj ((h s).symm.trans hexec)
      exact .inr ⟨rfl, .inl hi⟩
    | refused h => simp [h] at hexec
  · intro s t b hexec hne
    obtain ⟨r, k, hfeed, rfl⟩ := FeedOneByte.exec_feed_next hexec
    exact ((feedByte_busy hfeed).resolve_left hne).2

end Sys2Proof.Machine.Unread
end

section
/-! The frame boundary law (41_parser R143, R144, R150): what the last byte of a frame does, and the bytes of one whole frame,
fed from a parser that awaits a first byte, under every valid configuration. -/

namespace Sys2Proof.Machine.WholeFrames

open Sys2Proof Sys2Proof.Machine Sys2Proof.Machine.Meanings

/-- The codec whose last stored byte was `b`, after the frame with message type `mt` is complete. -/
def completed (b mt : Byte) (k : Codec) : Codec :=
  { k.store b with busy := busyAfterFrame mt k.busy, rxOff := 0 }

/-- What the dispatch of a whole frame answers: a foreign class is `OK` with no record (R144). -/
def frameResult (c : Config) (mt cls code : Byte) (p : Bytes) : Result :=
  if cls = c.classId then dispatch c mt code p else ⟨.ok, .none⟩

/-- The byte that completes the frame in the buffer: it is dispatched by its own bytes. -/
theorem feedByte_last {c : Config} {k : Codec} {b mt len cls code : Byte} {p : Bytes}
    (hoff : k.rxOff = p.length + 3) (hlen : k.rxLen.toNat = p.length) (hcap : k.rxOff < c.bufCap)
    (hread : ∀ a, a < p.length + 4 → (k.rxBuf.write k.rxOff b).read a = (mt :: len :: cls :: code :: p)[a]?) :
    feedByte c b k = .ok (frameResult c mt cls code p, completed b mt k) := by
  have hlen' : (k.store b).rxLen.toNat = p.length := by
    rw [Codec.store_rxLen, if_neg (by omega), hlen]
  rw [feedByte_completing hcap (by omega) (by rw [hoff, hlen]; rfl)]
  refine completeFrame_ok (k := k.store b) (bufRead_ok (by omega) (hread 0 (by omega)))
    (bufRead_ok (by omega) (hread 2 (by omega))) (bufRead_ok (by omega) (hread 3 (by omega))) ?_
  rw [hlen']
  refine bufReadN_ok (fun i hi => ?_) (by simp only [hdrLen]; omega)
  rw [Codec.store_rxBuf, hread _ (by simp only [hdrLen]; omega), hdrLen, Nat.add_comm 4 i]
  rfl

/-! ## In the middle of a frame -/

/-- `k` is `k₀`, which awaited a first byte, after it has taken the first `n` bytes of the frame `f`. -/
structure Taken (f : Bytes) (n : Nat) (k₀ k : Codec) : Prop where
  rxOff_eq : k.rxOff = n
  rxLen_eq : 2 ≤ n → f[1]? = some k.rxLen
  busy_eq : k.busy = k₀.busy
  rxBuf_read : ∀ a, k.rxBuf.read a = if a < n then f[a]? else k₀.rxBuf.read a
  txLog_eq : k.txLog = k₀.txLog

/-- `k` is `k₀` after it has consumed the whole frame `f`: what `ConsumedFrame` says of the codec. -/
structure Consumed (f : Bytes) (k₀ k : Codec) : Prop where
  rxOff_eq : k.rxOff = 0
  rxLen_eq : f[1]? = some k.rxLen
  busy_eq : k.busy = (if f[0]? = some mtCommand then false else k₀.busy)
  rxBuf_read : ∀ a, k.rxBuf.read a = if a < f.length then f[a]? else k₀.rxBuf.read a
  txLog_eq : k.txLog = k₀.txLog

theorem taken_zero (f : Bytes) {k : Codec} (h0 : k.rxOff = 0) : Taken f 0 k k where
  rxOff_eq := h0
  rxLen_eq := nofun
  busy_eq := rfl
  rxBuf_read := fun _ => rfl
  txLog_eq := rfl

section
variable {f : Bytes} {n : Nat} {k₀ k : Codec} {b : Byte} (ht : Taken f n k₀ k) (hb : f[n]? = some b)
include ht hb

/-- The next byte of the frame, written at the offset. -/
theorem taken_read_write (a : Nat) :
    (k.rxBuf.write k.rxOff b).read a = if a < n + 1 then f[a]? else k₀.rxBuf.read a := by
  rw [Memory.read_write, ht.rxOff_eq, ht.rxBuf_read]
  obtain h | rfl | h := Nat.lt_trichotomy a n
  · rw [if_neg h.ne, if_pos h, if_pos (by omega)]
  · rw [if_pos rfl, if_pos (by omega), hb]
  · rw [if_neg h.ne', if_neg (by omega), if_neg (by omega)]

theorem taken_store : Taken f (n + 1) k₀ (k.store b) where
  rxOff_eq := congrArg (· + 1) ht.rxOff_eq
  rxLen_eq := fun h2 => by
    rw [Codec.store_rxLen, ht.rxOff_eq]
    split
    · next h1 => rw [← h1, hb]
    · exact ht.rxLen_eq (by omega)
  busy_eq := ht.busy_eq
  rxBuf_read := taken_read_write ht hb
  txLog_eq := ht.txLog_eq

end

/-! ## The frame, byte by byte -/

/-- Past the second byte `rx_len` counts the payload. -/
theorem taken_rxLen_toNat {mt len cls code : Byte} {p : Bytes} {n : Nat} {k₀ k : Codec}
    (ht : Taken (mt :: len :: cls :: code :: p) n k₀ k) (hlen : p.length = len.toNat) (h2 : 2 ≤ n) :
    k.rxLen.toNat = p.length := by
  obtain rfl : len = k.rxLen := Option.some.inj (ht.rxLen_eq h2)
  exact hlen.symm

section
variable {c : Config} (hc : c.Valid) {mt len cls code : Byte} {p : Bytes} (hmt : mt = mtCommand ∨ mt = mtEvent)
  (hlen : p.length = len.toNat) (hp : p.length ≤ c.maxPayload) {n : Nat} {k₀ k : Codec} {b : Byte}
  (ht : Taken (mt :: len :: cls :: code :: p) n k₀ k) (hb : (mt :: len :: cls :: code :: p)[n]? = some b)
include hc hp ht hb

theorem taken_rxOff_lt_bufCap : k.rxOff < c.bufCap := by
  have hcap := hc.maxFrame_le_bufCap
  obtain ⟨hn, -⟩ := List.getElem?_eq_some_iff.mp hb
  simp only [Config.maxFrame, hdrLen, List.length_cons] at hcap hn
  rw [ht.rxOff_eq]
  omega

include hlen

/-- The last byte of the frame completes it. -/
theorem feedByte_taken_last (hn : n = p.length + 3) :
    feedByte c b k = .ok (frameResult c mt cls code p, completed b mt k) ∧
      Consumed (mt :: len :: cls :: code :: p) k₀ (completed b mt k) := by
  have hl : (mt :: len :: cls :: code :: p).length = n + 1 := by simp [hn]
  refine ⟨feedByte_last (len := len) (ht.rxOff_eq.trans hn) (taken_rxLen_toNat ht hlen (by omega))
    (taken_rxOff_lt_bufCap hc hp ht hb) fun a ha => ?_, ?_⟩
  · rw [taken_read_write ht hb, if_pos (by omega)]
  · exact
    { rxOff_eq := rfl
      rxLen_eq := (taken_store ht hb).rxLen_eq (by omega)
      busy_eq := by simp [completed, busyAfterFrame, ht.busy_eq]
      rxBuf_read := by
        rw [hl]
        exact taken_read_write ht hb
      txLog_eq := ht.txLog_eq }

include hmt

/-- Any other byte of the frame is stored. -/
theorem feedByte_taken (hn : n < p.length + 3) :
    feedByte c b k = .ok (⟨.ok, .none⟩, k.store b) := by
  refine feedByte_stored (taken_rxOff_lt_bufCap hc hp ht hb) (fun h0 => ?first) (fun h1 => ?length) ?more
  case first =>
    obtain rfl : n = 0 := ht.rxOff_eq.symm.trans h0
    obtain rfl : mt = b := Option.some.inj hb
    obtain rfl | rfl := hmt <;> decide
  case length =>
    obtain rfl : n = 1 := ht.rxOff_eq.symm.trans h1
    obtain rfl : len = b := Option.some.inj hb
    omega
  case more =>
    rintro ⟨h3, he⟩
    rw [ht.rxOff_eq] at h3 he
    rw [taken_rxLen_toNat ht hlen (by omega), hdrLen] at he
    omega

end

section
variable {c : Config} (hc : c.Valid) {mt len cls code : Byte} {p : Bytes} (hmt : mt = mtCommand ∨ mt = mtEvent)
  (hlen : p.length = len.toNat) (hp : p.length ≤ c.maxPayload)
include hc hmt hlen hp

/-- The rest of a frame, from the middle of it on. -/
theorem feedBytes_rest {rest : Bytes} {n : Nat} {k₀ k : Codec} (ht : Taken (mt :: len :: cls :: code :: p) n k₀ k)
    (hrest : (mt :: len :: cls :: code :: p).drop n = rest) (hne : rest ≠ []) :
    ∃ k', feedBytes c rest k =
        .ok (List.replicate (rest.length - 1) ⟨.ok, .none⟩ ++ [frameResult c mt cls code p], k') ∧
      Consumed (mt :: len :: cls :: code :: p) k₀ k' := by
  induction rest generalizing n k with
  | nil => exact absurd rfl hne
  | cons b rest ih =>
    have hb : (mt :: len :: cls :: code :: p)[n]? = some b := by
      rw [← List.head?_drop, hrest, List.head?_cons]
    have hdrop : (mt :: len :: cls :: code :: p).drop (n + 1) = rest := by
      rw [← List.tail_drop, hrest, List.tail_cons]
    have hcount := congrArg List.length hdrop
    simp only [List.length_drop, List.length_cons] at hcount
    obtain ⟨hn, -⟩ := List.getElem?_eq_some_iff.mp hb
    simp only [List.length_cons] at hn
    cases rest with
    | nil =>
      simp only [List.length_nil] at hcount
      obtain ⟨hlast, hcons⟩ := feedByte_taken_last hc hlen hp ht hb (by omega)
      exact ⟨_, feedBytes_cons hlast rfl, hcons⟩
    | cons b' rest =>
      simp only [List.length_cons] at hcount
      obtain ⟨k', hk', hcons⟩ := ih (taken_store ht hb) hdrop (List.cons_ne_nil _ _)
      exact ⟨k', feedBytes_cons (feedByte_taken hc hmt hlen hp ht hb (by omega)) hk', hcons⟩

/-- One whole frame, from a parser that awaits a first byte. -/
theorem feedBytes_frame {k : Codec} (h0 : k.rxOff = 0) :
    ∃ k', feedBytes c (mt :: len :: cls :: code :: p) k =
        .ok (List.replicate (3 + p.length) ⟨.ok, .none⟩ ++ [frameResult c mt cls code p], k') ∧
      Consumed (mt :: len :: cls :: code :: p) k k' := by
  obtain ⟨k', hk', hcons⟩ := feedBytes_rest hc hmt hlen hp (taken_zero _ h0) (List.drop_zero ..) (List.cons_ne_nil _ _)
  exact ⟨k', by rw [hk', Nat.add_comm 3]; rfl, hcons⟩

end

/-! ## The obligations -/

/-- Settles O14. -/
theorem oneFrameIsConsumedWhole : Obligations.OneFrameIsConsumedWhole := by
  intro c hc k mt len cls code p h0 hmt hlen hp
  obtain ⟨k', hk', hcons⟩ := feedBytes_frame (cls := cls) (code := code) hc hmt hlen hp h0
  refine ⟨k', hk', hcons.rxOff_eq, ?_⟩
  simpa [mtCommand] using hcons.busy_eq

/-- Settles O13: the bytes before the last stand in the buffer, and the invariants put the last one inside it. -/
theorem completingByteDispatchesTheFrame : Obligations.CompletingByteDispatchesTheFrame := by
  intro s b mt len cls code p pre hs h3 he hpre hstored hframe
  have hcount : pre.length + 1 = p.length + 4 := by simpa using congrArg List.length hframe
  have hread : ∀ a, a < p.length + 4 →
      (s.codec.rxBuf.write s.codec.rxOff b).read a = (mt :: len :: cls :: code :: p)[a]? := fun a ha => by
    rw [Memory.read_write, ← hframe, ← hpre]
    split
    · next h => rw [h, List.getElem?_concat_length]
    · rw [hstored a (by omega), List.getElem?_append_left (by omega)]
  have hlast := feedByte_last (c := cfg) (by omega) (by omega) (Invariants.rxOff_lt_bufCap cfg_valid hs) hread
  refine ⟨_, FeedOneByte.exec_feed_ok hlast, rfl, rfl, ?_, rfl, rfl, rfl, Memory.read_write s.codec.rxBuf s.codec.rxOff b⟩
  exact if_neg (by omega)

end Sys2Proof.Machine.WholeFrames
end

section
/-! The text renderings and the other decoded values (42_dispatch_responses R172 to R178, R210). -/

namespace Sys2Proof.Machine.Values

open Sys2Proof Sys2Proof.Machine

/-! ## Two's complement (R11, R176) -/

theorem sext8_cfg (b : Byte) : sext8 cfg b = if b.toNat < 128 then (b.toNat : Int) else (b.toNat : Int) - 256 := rfl

/-- The value R176 gives a byte is its signed value. -/
theorem sext8_eq_toInt (b : Byte) : sext8 cfg b = b.toInt := by
  rw [sext8_cfg, BitVec.toInt_eq_toNat_cond]
  have : b.toNat < 128 ↔ 2 * b.toNat < 2 ^ 8 := by omega
  simp only [this]
  rfl

/-- Adding 256 to a negative value does not change its byte. -/
theorem tc8_eq_ofInt (v : Int) : tc8 v = BitVec.ofInt 8 v := by
  unfold tc8
  split
  · apply BitVec.eq_of_toInt_eq
    rw [BitVec.toInt_ofInt, BitVec.toInt_ofInt]
    exact Int.add_bmod_right v 256
  · rfl

theorem sext8_tc8 {v : Int} (h₁ : -128 ≤ v) (h₂ : v ≤ 127) : sext8 cfg (tc8 v) = v := by
  rw [sext8_eq_toInt, tc8_eq_ofInt, BitVec.toInt_ofInt]
  exact Int.bmod_eq_of_le (by omega) (by omega)

/-! ## Text (R172 to R175) -/

theorem hexString_length (bs : Bytes) : (hexString bs).length = 2 * bs.length := by
  induction bs with
  | nil => rfl
  | cons b bs ih =>
    rw [hexString, List.flatMap_cons, List.length_append, ← hexString, ih, List.length_cons]
    simp only [hex2, List.length_cons, List.length_nil]
    omega

/-- The digits of two bytes are those of the one and those of the other. -/
theorem hexString_pair (x y : Byte) : hexString [x, y] = hex2 x ++ hex2 y := rfl

section
variable {x y : Byte} {h₀ h₁ h₂ h₃ : Char} (h : hex2 x ++ hex2 y = [h₀, h₁, h₂, h₃])
include h

theorem modelString_pair : modelString [x, y] = ['B', 'C', h₀, h₁, h₂, '-', h₃] := by
  rw [modelString, hexString_pair, h]
  rfl

theorem fwString_pair :
    fwString [x, y] = if h₀ = '0' then [h₁, '.', h₂, '.', h₃] else [h₀, '.', h₁, '.', h₂, '.', h₃] := by
  rw [fwString, hexString_pair, h, dropZero]
  split <;> rfl

end

/-! ## The two byte orders (R48, R49) -/

/-- A 16-bit field as R178 writes it. -/
theorem be16_eq_ofNat (hi lo : Byte) : be16 hi lo = BitVec.ofNat 16 (hi.toNat <<< 8 ||| lo.toNat) := by
  rw [← ByteOrders.be16_toNat, BitVec.ofNat_toNat, BitVec.setWidth_eq]

/-! ## The obligations -/

/-- Settles O30: `sext_8` is the signed value of a byte, and `tc8` the byte of a signed value. -/
theorem powerBytesRoundTrip : Obligations.PowerBytesRoundTrip := by
  refine ⟨fun v => sext8_tc8, fun b => ?_, sext8_cfg⟩
  have hlo := BitVec.le_toInt b
  have hhi := BitVec.toInt_lt (x := b)
  rw [sext8_eq_toInt]
  exact ⟨tc8_toInt b, by simpa using hlo, by omega⟩

/-- Settles O32. -/
theorem textRenderings : Obligations.TextRenderings :=
  ⟨fun _ => rfl, by decide, hexString_length, fun _ _ _ _ _ _ h =>
    ⟨(hexString_pair ..).trans h, modelString_pair h, fwString_pair h⟩⟩

/-- Settles O33: each decode format gets back the value its request format wrote, but for the order of two bytes. -/
theorem requestAndDecodeFormatsRoundTrip : Obligations.RequestAndDecodeFormatsRoundTrip := by
  refine ⟨fun v => rfl, fun v h₁ h₂ => congrArg Value.i8 (sext8_tc8 h₁ h₂), fun f => by cases f <;> rfl,
    fun u p hu => ?uuid, fun v => ⟨_, rfl, ByteOrders.be16_toNat_of_le16_eq rfl⟩⟩
  case uuid =>
    obtain ⟨hl, hup⟩ := Option.ite_none_right_eq_some.mp hu
    obtain rfl := Option.some.inj hup
    exact congrArg Value.uuid (List.take_of_length_le hl.le)

end Sys2Proof.Machine.Values
end

section
/-! The command rows (40_encoder_commands R101 to R133): each transmits the payload of its request, so that a row's statement
is what that payload is. -/

namespace Sys2Proof.Machine.CommandRows

open Sys2Proof Sys2Proof.Machine Sys2Proof.Machine.Rows

/-- A command row transmits its request's payload. -/
theorem exec_command {i : Instr} {cmd : CommandRequest} {p : Bytes} (s : State) (hi : i = .ofRequest cmd)
    (h : cmd.payload cfg = some p) : exec i s = .next (afterTransmit cmd.name p s) := by
  rw [hi, exec_ofRequest, transmitRow_some s h]

/-- A command row of a request without a payload answers `INVALID_ARGUMENT`. -/
theorem exec_command_none {i : Instr} {cmd : CommandRequest} (s : State) (hi : i = .ofRequest cmd)
    (h : cmd.payload cfg = none) :
    exec i s = .next { s with results := [⟨.invalidArgument cmd.name, .none⟩] } := by
  rw [hi, exec_ofRequest, transmitRow_none s h]

/-! ## The three arguments that have a length -/

theorem payload_writeUuid (u : Bytes) :
    CommandRequest.payload cfg (.writeUuid u) = if u.length = 16 then some u else none := rfl

theorem payload_sendDataBlocks (t e r : Byte) (d : Bytes) :
    CommandRequest.payload cfg (.sendDataBlocks t e r d) = if d.length ≤ 248 then some (t :: e :: r :: d) else none := by
  have h : 3 + d.length ≤ 251 ↔ d.length ≤ 248 := by omega
  change (if 3 + d.length ≤ 251 then _ else _) = _
  simp only [h]

theorem payload_respondDataRequest (d : Bytes) :
    CommandRequest.payload cfg (.respondDataRequest d) = if d.length ≤ 251 then some d else none := rfl

/-! ## A signed byte -/

/-- The byte of a signed value, as R120 writes it. -/
theorem tc8_eq_ofNat {v : Int} (hv : -128 ≤ v) :
    tc8 v = if 0 ≤ v then BitVec.ofNat 8 v.toNat else BitVec.ofNat 8 (v + 256).toNat := by
  have hofNat : ∀ w : Int, 0 ≤ w → BitVec.ofInt 8 w = BitVec.ofNat 8 w.toNat := fun w hw => by
    rw [← BitVec.ofInt_natCast, Int.toNat_of_nonneg hw]
  unfold tc8
  split
  · rw [if_neg (by omega), hofNat _ (by omega)]
  · rw [if_pos (by omega), hofNat _ (by omega)]

/-! ## The obligations -/

/-- Settles O35. -/
theorem transmitEmitsAndSetsBusy : Obligations.TransmitEmitsAndSetsBusy :=
  fun s _ => ⟨fun _ h => transmitRow_some s h, fun h => transmitRow_none s h⟩

/-- Settles O36, by the request: three payloads depend on a length, and the others are always there. -/
theorem onlyThreeRequestsHaveIllegalArguments : Obligations.OnlyThreeRequestsHaveIllegalArguments := by
  intro cmd
  cases cmd
  case writeUuid u => simp [payload_writeUuid]
  case sendDataBlocks t e r d => simp [payload_sendDataBlocks]
  case respondDataRequest d => simp [payload_respondDataRequest]
  all_goals simp [CommandRequest.payload]

/-- Settles O39. -/
theorem argumentlessCommandsAreTransmitted : Obligations.ArgumentlessCommandsAreTransmitted := by
  intro s x hx
  obtain ⟨cmd, hi, hname, hp⟩ : ∃ cmd, x.1 = .ofRequest cmd ∧ cmd.name = x.2 ∧ cmd.payload cfg = some [] := by
    fin_cases hx
    exacts [⟨.ping, rfl, rfl, rfl⟩, ⟨.readBtAddress, rfl, rfl, rfl⟩, ⟨.readVersion, rfl, rfl, rfl⟩,
      ⟨.readLoudness, rfl, rfl, rfl⟩, ⟨.readMode, rfl, rfl, rfl⟩, ⟨.readUuid, rfl, rfl, rfl⟩, ⟨.readMajor, rfl, rfl, rfl⟩,
      ⟨.readMinor, rfl, rfl, rfl⟩, ⟨.readPower, rfl, rfl, rfl⟩, ⟨.readAdvEnabled, rfl, rfl, rfl⟩,
      ⟨.readEventsEnabled, rfl, rfl, rfl⟩, ⟨.readTargetSpeed, rfl, rfl, rfl⟩, ⟨.readModelNumber, rfl, rfl, rfl⟩,
      ⟨.readFirmwareVersion, rfl, rfl, rfl⟩, ⟨.readCrashReport, rfl, rfl, rfl⟩, ⟨.cancelDataBlocks, rfl, rfl, rfl⟩,
      ⟨.beginSettingsUpdate, rfl, rfl, rfl⟩, ⟨.endSettingsUpdate, rfl, rfl, rfl⟩]
  exact hname ▸ exec_command s hi hp

/-- Settles O40. -/
theorem flagCommandsAreTransmitted : Obligations.FlagCommandsAreTransmitted := by
  intro s f x hx
  fin_cases hx
  · exact exec_command (cmd := .reset f) s rfl rfl
  · exact exec_command (cmd := .writeAdvEnabled f) s rfl rfl
  · exact exec_command (cmd := .writeEventsEnabled f) s rfl rfl

/-- Settles O41. -/
theorem byteCommandsAreTransmitted : Obligations.ByteCommandsAreTransmitted := by
  intro s v x hx
  fin_cases hx
  · exact exec_command (cmd := .writeVersion v) s rfl rfl
  · exact exec_command (cmd := .writeLoudness v) s rfl rfl
  · exact exec_command (cmd := .writeMode v) s rfl rfl

/-- Settles O42: the payload is `le16`, the low byte and then the high one. -/
theorem sixteenBitCommandsAreTransmittedLowByteFirst : Obligations.SixteenBitCommandsAreTransmittedLowByteFirst := by
  intro s v x hx
  have hbytes := congrArg some (ByteOrders.le16_eq_low_high v)
  fin_cases hx
  · exact exec_command (cmd := .writeMajor v) s rfl hbytes
  · exact exec_command (cmd := .writeMinor v) s rfl hbytes

/-- Settles O43. -/
theorem powerIsTransmittedInTwosComplement : Obligations.PowerIsTransmittedInTwosComplement := by
  intro s v
  have hv : -128 ≤ v.toInt := by simpa using BitVec.le_toInt v
  rw [← tc8_eq_ofNat hv]
  exact exec_command (cmd := .writePower v) s rfl rfl

/-- Settles O44. -/
theorem uuidIsTransmittedVerbatim : Obligations.UuidIsTransmittedVerbatim :=
  fun s u => ⟨fun h => exec_command (cmd := .writeUuid u) s rfl (if_pos h),
    fun h => exec_command_none (cmd := .writeUuid u) s rfl (if_neg h)⟩

/-- Settles O45. -/
theorem dataIsTransmittedVerbatim : Obligations.DataIsTransmittedVerbatim := by
  intro s t e r d
  have hblocks := payload_sendDataBlocks t e r d
  refine ⟨fun h => ?_, fun h => ?_, fun h => ?_, fun h => ?_⟩
  · exact exec_command (cmd := .sendDataBlocks t e r d) s rfl (hblocks.trans (if_pos h))
  · exact exec_command_none (cmd := .sendDataBlocks t e r d) s rfl (hblocks.trans (if_neg (Nat.not_le.mpr h)))
  · exact exec_command (cmd := .respondDataRequest d) s rfl (if_pos h)
  · exact exec_command_none (cmd := .respondDataRequest d) s rfl (if_neg (Nat.not_le.mpr h))

end Sys2Proof.Machine.CommandRows
end

section
/-! The caller's requests, the table's words and the operations with one meaning (00_scope R15, 30_encoding R66, 41_parser
R147, 70_reset_and_hazards R270). -/

namespace Sys2Proof.Machine.Stepping

open Sys2Proof Sys2Proof.Machine

/-- A step with a request that asks for an instruction runs it. -/
theorem step_of_instr {s : State} {r : Request} {rest : List Request} {i : Instr} (h : r.instr = .ok i) :
    step { s with requests := r :: rest } = exec i { s with requests := rest } := by
  simp [step, h]

/-- A step with a request that asks for none is refused by name. -/
theorem step_of_no_instr {s : State} {r : Request} {rest : List Request} {e : DecodeError} (h : r.instr = .error e) :
    step { s with requests := r :: rest } = .refused (.notACommandFrame e) := by
  simp [step, h]

/-- Bytes that decode for their direction ask for their row. -/
theorem instr_wire_of_decode {d : Direction} {bs : Bytes} {i : Instr} (h : decode d bs = .ok i) :
    (Request.wire d bs).instr = .ok i := by
  cases d with
  | hostToDevice => exact h
  | deviceToHost => simp [Request.instr, h]

/-- Bytes from the device that are no row ask to be fed. -/
theorem instr_wire_deviceToHost_error {bs : Bytes} {e : DecodeError} (h : decode .deviceToHost bs = .error e) :
    (Request.wire .deviceToHost bs).instr = .ok (.feedChunk bs) := by
  simp [Request.instr, h]

/-- A table word that is read was decoded for the direction it is placed in. -/
theorem decode_of_decodeTableWord {nbits w : Nat} {i : Instr} (h : decodeTableWord nbits w = some i) :
    decode (wordDirection nbits w) (wordBytes nbits w) = .ok i := by
  unfold decodeTableWord at h
  split at h
  · next hdec => rw [hdec, Option.some.inj h]
  · simp at h

/-! ## The obligations -/

/-- Settles O1. -/
theorem stepRunsTheFetchedInstruction : Obligations.StepRunsTheFetchedInstruction :=
  fun _ _ => ⟨fun _ => step_of_instr rfl, fun _ _ _ h => step_of_instr (instr_wire_of_decode h),
    fun _ _ h => step_of_instr (instr_wire_deviceToHost_error h), fun _ _ h => step_of_no_instr h, rfl⟩

/-- Settles O2. -/
theorem tableWordRunsNext : Obligations.TableWordRunsNext :=
  fun _ _ _ _ h => step_of_instr (instr_wire_of_decode (decode_of_decodeTableWord h))

/-- Settles O3, by running the decoder on the six. -/
theorem sourceFramesDecodeToTheirRows : Obligations.SourceFramesDecodeToTheirRows := by
  unfold Obligations.SourceFramesDecodeToTheirRows
  decide

/-- Settles O20. -/
theorem resetStateAwaitsAFirstByte : Obligations.ResetStateAwaitsAFirstByte :=
  ⟨rfl, rfl, rfl, rfl, Memory.read_nil⟩

/-- Settles O37. -/
theorem resyncOnlyClearsTheOffset : Obligations.ResyncOnlyClearsTheOffset := fun _ => rfl

/-- Settles O38. -/
theorem codecResetStartsOver : Obligations.CodecResetStartsOver := fun _ => rfl

end Sys2Proof.Machine.Stepping
end

section
/-! The response and event rows from a parser that awaits a first byte (42_dispatch_responses, 43_dispatch_events): the frame
boundary law gives the state, and the dispatch decoder the last byte's answer, so that a row's statement is what its format
makes of the payload. -/

namespace Sys2Proof.Machine.InboundRows

open Sys2Proof Sys2Proof.Machine Sys2Proof.Machine.Rows Sys2Proof.Machine.WholeFrames

/-! ## A fed frame -/

/-- The codec's part of a consumed frame, and the results, are the state's. -/
theorem consumedFrame_deliver {f : Bytes} {s : State} {k : Codec} {last : Result} (h : Consumed f s.codec k) :
    ConsumedFrame f last s (s.deliver k (List.replicate (f.length - 1) ⟨.ok, .none⟩ ++ [last])) where
  results_eq := rfl
  rxOff_eq := h.rxOff_eq
  rxLen_eq := h.rxLen_eq
  busy_eq := h.busy_eq
  rxBuf_read := h.rxBuf_read
  txLog_eq := h.txLog_eq
  requests_eq := rfl

/-- The instruction feeds the bytes `f` to the parser, in every state. -/
def FeedsFrame (i : Instr) (f : Bytes) : Prop := ∀ s, exec i s = finishAll s (feedBytes cfg f s.codec)

/-- An instruction that feeds a frame of this protocol consumes it, and the last byte answers its dispatch. -/
theorem consumes_frame {i : Instr} {mt code : Byte} {p : Bytes} {s : State}
    (hi : FeedsFrame i (frame cfg mt code p)) (h0 : s.codec.rxOff = 0) (hmt : mt = mtCommand ∨ mt = mtEvent)
    (hp : p.length ≤ cfg.maxPayload) : Consumes i (frame cfg mt code p) (dispatch cfg mt code p) s := by
  obtain ⟨k, hk, hcons⟩ := feedBytes_frame (cls := cfg.classId) (code := code) cfg_valid hmt
    (length_byte cfg_valid hp).symm hp h0
  have hcount : 3 + p.length = (frame cfg mt code p).length - 1 := by
    simp only [frame, List.length_cons]
    omega
  rw [frameResult, if_pos rfl, hcount] at hk
  exact ⟨_, (hi s).trans (congrArg (finishAll s) hk), consumedFrame_deliver hcons⟩

section
variable {i : Instr} {p : Bytes} {s : State} {m : CmdName} (h0 : s.codec.rxOff = 0) (hp : p.length ≤ 251)
  (hi : FeedsFrame i (responseFrame m p))
include h0 hp hi

theorem consumes_responseFrame :
    Consumes i (responseFrame m p) (decodeFormat cfg (respFormat m) p (.resp m)) s := by
  rw [← dispatch_command cfg_valid]
  exact consumes_frame hi h0 (.inl rfl) hp

/-- A response with the bytes its format needs yields the decoded value. -/
theorem consumes_response_value {v : Value} (hneed : (respFormat m).need cfg ≤ p.length)
    (hv : (respFormat m).value cfg p = v) : Consumes i (responseFrame m p) ⟨.ok, .record ⟨.resp m, v⟩⟩ s := by
  rw [← hv, ← decodeFormat_ok (.resp m) hneed]
  exact consumes_responseFrame h0 hp hi

/-- A shorter one is malformed. -/
theorem consumes_response_short (hshort : p.length < (respFormat m).need cfg) :
    Consumes i (responseFrame m p) ⟨.errMalformed (.resp m) p.length, .none⟩ s := by
  rw [← decodeFormat_short (.resp m) hshort]
  exact consumes_responseFrame h0 hp hi

end

section
variable {i : Instr} {p : Bytes} {s : State} {m : EvtName} (h0 : s.codec.rxOff = 0) (hp : p.length ≤ 251)
  (hi : FeedsFrame i (eventFrame m p))
include h0 hp hi

theorem consumes_eventFrame :
    Consumes i (eventFrame m p) (decodeFormat cfg (evtFormat m) p (.evt m)) s := by
  rw [← dispatch_event cfg_valid]
  exact consumes_frame hi h0 (.inr rfl) hp

/-- An event with the bytes its format needs yields the decoded value. -/
theorem consumes_event_value {v : Value} (hneed : (evtFormat m).need cfg ≤ p.length)
    (hv : (evtFormat m).value cfg p = v) : Consumes i (eventFrame m p) ⟨.ok, .record ⟨.evt m, v⟩⟩ s := by
  rw [← hv, ← decodeFormat_ok (.evt m) hneed]
  exact consumes_eventFrame h0 hp hi

/-- A shorter one is malformed. -/
theorem consumes_event_short (hshort : p.length < (evtFormat m).need cfg) :
    Consumes i (eventFrame m p) ⟨.errMalformed (.evt m) p.length, .none⟩ s := by
  rw [← decodeFormat_short (.evt m) hshort]
  exact consumes_eventFrame h0 hp hi

end

/-! ## The instructions that feed a frame -/

/-- A response row feeds its frame. -/
theorem feedsFrame_response {i : Instr} {m : CmdName} {p : Bytes} (hi : i = .ofResponse m p) (hp : p.length ≤ 251) :
    FeedsFrame i (responseFrame m p) := fun s => by
  rw [hi, exec_ofResponse]
  exact receiveRow_fits s hp

/-- An event row feeds its frame. -/
theorem feedsFrame_event {i : Instr} {m : EvtName} {p : Bytes} (hi : i = .ofEvent m p) (hp : p.length ≤ 251) :
    FeedsFrame i (eventFrame m p) := fun s => by
  rw [hi, exec_ofEvent]
  exact receiveRow_fits s hp

/-- So does a chunk that is one. -/
theorem feedsFrame_feedChunk (f : Bytes) : FeedsFrame (.feedChunk f) f := fun _ => rfl

/-- The frame of an event leaves `busy` (R151). -/
theorem busy_of_consumed_event {m : EvtName} {p : Bytes} {last : Result} {s t : State}
    (h : ConsumedFrame (eventFrame m p) last s t) : t.codec.busy = s.codec.busy := by
  rw [h.busy_eq]
  exact if_neg (by simp [eventFrame, mtCommand])

/-- No format needs more than a UUID's sixteen bytes. -/
theorem need_le (fmt : DecFormat) : fmt.need cfg ≤ 16 := by
  cases fmt <;> decide

/-! ## The obligations -/

/-- Settles O46: each row's format is `DEC-CODE`. -/
theorem responseCodesAreDelivered : Obligations.ResponseCodesAreDelivered := by
  intro s b q h0 hq x hx
  have hp : (b :: q).length ≤ 251 := hq
  obtain ⟨hi, hfmt⟩ : x.1 = .ofResponse x.2 (b :: q) ∧ respFormat x.2 = .code := by
    fin_cases hx <;> exact ⟨rfl, rfl⟩
  refine consumes_response_value h0 hp (feedsFrame_response hi hp) ?_ ?_ <;> rw [hfmt]
  · exact Nat.succ_le_succ (Nat.zero_le _)
  · rfl

/-- Settles O47: each row's format is `DEC-RAW`. -/
theorem rawResponsesAreDeliveredWhole : Obligations.RawResponsesAreDeliveredWhole := by
  intro s p h0 hp x hx
  obtain ⟨hi, hfmt⟩ : x.1 = .ofResponse x.2 p ∧ respFormat x.2 = .raw := by
    fin_cases hx <;> exact ⟨rfl, rfl⟩
  refine consumes_response_value h0 hp (feedsFrame_response hi hp) ?_ ?_ <;> rw [hfmt]
  · exact Nat.zero_le _
  · rfl

/-- Settles O48: each format takes the payload's first bytes, as many as it needs. -/
theorem fixedBlocksAreDelivered : Obligations.FixedBlocksAreDelivered := by
  intro s p q h0 hp
  have hneed : p.length ≤ (p ++ q).length := by simp
  refine ⟨fun hl => ?_, fun hl => ?_, fun hl => ?_⟩
  all_goals
    have htake := List.take_left' (l₂ := q) hl
    rw [hl] at hneed
  · exact consumes_response_value (m := .ping) h0 hp (feedsFrame_response rfl hp) hneed (congrArg Value.raw htake)
  · exact consumes_response_value (m := .readBtAddress) h0 hp (feedsFrame_response rfl hp) hneed
      (congrArg (fun bs => Value.text (hexString bs)) htake)
  · exact consumes_response_value (m := .readUuid) h0 hp (feedsFrame_response rfl hp) hneed (congrArg Value.uuid htake)

/-- Settles O49: each row's format needs one byte and gives the value listed. -/
theorem scalarResponsesAreDelivered : Obligations.ScalarResponsesAreDelivered := by
  intro s b q h0 hq x hx
  have hp : (b :: q).length ≤ 251 := hq
  have hflag : boolOf b = decide (b ≠ 0) := by
    rw [Bool.eq_iff_iff]
    simp [boolOf]
  obtain ⟨hi, hneed, hv⟩ : x.1 = .ofResponse x.2.1 (b :: q) ∧ (respFormat x.2.1).need cfg = 1 ∧
      (respFormat x.2.1).value cfg (b :: q) = x.2.2 := by
    fin_cases hx
    exacts [⟨rfl, rfl, rfl⟩, ⟨rfl, rfl, rfl⟩, ⟨rfl, rfl, rfl⟩, ⟨rfl, rfl, congrArg Value.bool hflag⟩,
      ⟨rfl, rfl, congrArg Value.bool hflag⟩]
  exact consumes_response_value h0 hp (feedsFrame_response hi hp) (hneed.le.trans (Nat.succ_le_succ (Nat.zero_le _))) hv

/-- Settles O50: the row and the chunk feed the same frame, whose format is `DEC-U16BE`. -/
theorem majorAndMinorAreBigEndian : Obligations.MajorAndMinorAreBigEndian := by
  intro s p h0 hp x hx
  obtain ⟨hi, hfmt⟩ : FeedsFrame x.1 (responseFrame x.2 p) ∧ respFormat x.2 = .u16be := by
    fin_cases hx
    exacts [⟨feedsFrame_response rfl hp, rfl⟩, ⟨feedsFrame_response rfl hp, rfl⟩, ⟨feedsFrame_feedChunk _, rfl⟩,
      ⟨feedsFrame_feedChunk _, rfl⟩]
  constructor
  · rintro hi' lo q rfl
    refine consumes_response_value h0 hp hi ?_ ?_ <;> rw [hfmt]
    · exact Nat.succ_le_succ (Nat.succ_le_succ (Nat.zero_le _))
    · exact congrArg Value.u16 (Values.be16_eq_ofNat hi' lo)
  · intro hshort
    exact consumes_response_short h0 hp hi (by rw [hfmt]; exact hshort)

/-- Settles O51: both formats render the first two bytes. -/
theorem modelAndFirmwareTexts : Obligations.ModelAndFirmwareTexts := by
  intro s x y q h₀ h₁ h₂ h₃ h0 hq hdigits
  have hp : (x :: y :: q).length ≤ 251 := hq
  have hneed : 2 ≤ (x :: y :: q).length := Nat.succ_le_succ (Nat.succ_le_succ (Nat.zero_le _))
  constructor
  · exact consumes_response_value (m := .readModelNumber) h0 hp (feedsFrame_response rfl hp) hneed
      (congrArg Value.text (Values.modelString_pair hdigits))
  · exact consumes_response_value (m := .readFirmwareVersion) h0 hp (feedsFrame_response rfl hp) hneed
      (congrArg Value.text (Values.fwString_pair hdigits))

/-- Settles O52: each row's format has the need listed, and a payload too short for it fits a frame. -/
theorem shortPayloadsAreMalformed : Obligations.ShortPayloadsAreMalformed := by
  intro s p h0
  constructor
  · intro x hx hshort
    obtain ⟨hi, hneed⟩ : x.1 = .ofResponse x.2.1 p ∧ (respFormat x.2.1).need cfg = x.2.2 := by
      fin_cases hx <;> exact ⟨rfl, rfl⟩
    rw [← hneed] at hshort
    have hp : p.length ≤ 251 := by
      have := need_le (respFormat x.2.1)
      omega
    exact consumes_response_short h0 hp (feedsFrame_response hi hp) hshort
  · intro hshort
    have hp : p.length ≤ 251 := by omega
    exact consumes_event_short h0 hp (feedsFrame_event rfl hp) hshort

/-- Settles O53: each row's format is `DEC-RAW`. -/
theorem rawEventsAreDeliveredWhole : Obligations.RawEventsAreDeliveredWhole := by
  intro s p h0 hp x hx
  obtain ⟨hi, hfmt⟩ : x.1 = .ofEvent x.2 p ∧ evtFormat x.2 = .raw := by
    fin_cases hx <;> exact ⟨rfl, rfl⟩
  refine consumes_event_value h0 hp (feedsFrame_event hi hp) ?_ ?_ <;> rw [hfmt]
  · exact Nat.zero_le _
  · rfl

/-- Settles O54: the row and the chunk feed the same frame, whose format needs one byte. -/
theorem errorEventDeliversItsCode : Obligations.ErrorEventDeliversItsCode := by
  intro s p h0 hp i hi
  have hfeeds : FeedsFrame i (eventFrame .error p) := by
    fin_cases hi
    exacts [feedsFrame_event rfl hp, feedsFrame_feedChunk _]
  cases p with
  | nil =>
    obtain ⟨t, ht, hcons⟩ := consumes_event_short h0 hp hfeeds Nat.zero_lt_one
    exact ⟨t, ht, busy_of_consumed_event hcons, nofun, fun _ => hcons⟩
  | cons b q =>
    obtain ⟨t, ht, hcons⟩ := consumes_event_value h0 hp hfeeds (Nat.succ_le_succ (Nat.zero_le _)) rfl
    refine ⟨t, ht, busy_of_consumed_event hcons, fun b' q' hpq => ?_, nofun⟩
    obtain ⟨rfl, rfl⟩ := List.cons.inj hpq
    exact hcons

/-- Refutes O57: the frame of `READ_MAJOR`, fed back to the reset parser, is a response with no payload, which is malformed
(R171, R191, F14). -/
theorem not_feedingBackAnyCommandAnswersOk : ¬ Obligations.FeedingBackAnyCommandAnswersOk := by
  intro hall
  obtain ⟨t, ht, hok⟩ := hall State.reset .readMajor (responseFrame .readMajor []) rfl rfl
  obtain ⟨t', ht', hcons⟩ := consumes_response_short (s := State.reset) (p := []) (m := .readMajor) rfl (Nat.zero_le _)
    (feedsFrame_feedChunk _) Nat.zero_lt_two
  obtain rfl := Host.Outcome.next.inj (ht.symm.trans ht')
  have hlast := hok ⟨.errMalformed (.resp .readMajor) 0, .none⟩ (by simp [hcons.results_eq])
  simp at hlast

end Sys2Proof.Machine.InboundRows
end
